-- ==== Sys2Proof/Word.lean ====
section
/-! DEFINITION. The machine word: registers and addresses are 32 bits wide (R9, R22). -/

namespace Sys2Proof

/-- A 32-bit register word or address (R9: "Register width is 32 bits. Address width is 32 bits."). -/
abbrev Word := BitVec 32

/-- One byte of a register word (R64). -/
abbrev Byte := BitVec 8

end Sys2Proof
end

