-- ==== Sys2Proof/Syntax.lean ====
section
/-! DEFINITION. The command set: one constructor per row of spec/opcode_table.json (R81), and the fields of
the one format CMDW (R80). -/

namespace Sys2Proof

/-- The nine commands of R81. The only operand is CS_END's token bit `t` (R82). -/
inductive Instr where
  | sysInit
  | enterSleep
  | enterStop
  | exitStop
  | clkCold
  | clkResume
  | calibrate
  | csBegin
  | csEnd (t : BitVec 1)
  deriving DecidableEq, Repr

/-- A command word by its fields (R80): `op` = w[7:0], `t` = w[8], `rsv` = w[31:9]. -/
structure Cmdw where
  op : BitVec 8
  t : BitVec 1
  rsv : BitVec 23
  deriving DecidableEq, Repr

end Sys2Proof
end

