-- ==== Sys2Proof/WellFormed.lean ====
section
/-! DEFINITION. When a command word's fields stand for a command (R80, R81, R83), as three checks. Every term
of `Instr` is well formed: its one operand is a 1-bit value (R82), so no ill-formed command can be written. -/

namespace Sys2Proof

/-- The assigned opcodes of R81. -/
def Cmdw.opAssigned (c : Cmdw) : Bool :=
  c.op == 0x01#8 || c.op == 0x02#8 || c.op == 0x03#8 || c.op == 0x04#8 || c.op == 0x10#8
    || c.op == 0x11#8 || c.op == 0x20#8 || c.op == 0x30#8 || c.op == 0x31#8

/-- R80: bit 8 is "used only by CS_END, must be 0 for every other opcode". -/
def Cmdw.tokenAllowed (c : Cmdw) : Bool :=
  c.op == 0x31#8 || c.t == 0#1

/-- R80: bits [31:9] are "reserved, must be 0". -/
def Cmdw.reservedZero (c : Cmdw) : Bool :=
  c.rsv == 0#23

/-- R83: the word is legal. -/
def Cmdw.wellFormed (c : Cmdw) : Bool :=
  c.opAssigned && c.tokenAllowed && c.reservedZero

/-- A command's operands fit their fields (R82). CS_END's token is a 1-bit value by its type, so every
command is well formed (`every_instr_wellFormed`, Laws/Decode.lean). -/
def Instr.wellFormed : Instr → Bool
  | .sysInit => true
  | .enterSleep => true
  | .enterStop => true
  | .exitStop => true
  | .clkCold => true
  | .clkResume => true
  | .calibrate => true
  | .csBegin => true
  | .csEnd t => decide (t.toNat < 2)

end Sys2Proof
end

