-- ==== Sys2Proof/Decode.lean ====
section
/-! DEFINITION. Decoding a command word (R80..R83) and encoding a command (R81). A word is 32 bits, stored
little-endian (R64); decoding is total and names why it rejects. Every rejection is the fault ILLEGAL_CMD
(R83), whatever its name here. -/

namespace Sys2Proof

/-- Why bytes or a word stand for no command (R83). -/
inductive DecodeError where
  /-- Fewer than the four bytes every command has (R80). -/
  | tooShort
  /-- A nonzero bit in [31:9]. -/
  | reservedBits
  /-- Bit 8 set for an opcode other than CS_END. -/
  | tokenBit
  /-- An unassigned opcode. -/
  | unassignedOpcode
  deriving DecidableEq, Repr

/-- Bits [7:0] (R80). -/
def opField (w : Word) : BitVec 8 := w.extractLsb' 0 8

/-- Bit [8] (R80, R82). -/
def tokenField (w : Word) : BitVec 1 := w.extractLsb' 8 1

/-- Bits [31:9] (R80). -/
def reservedField (w : Word) : BitVec 23 := w.extractLsb' 9 23

/-- The fields of a word (R80). -/
def splitWord (w : Word) : Cmdw := ⟨opField w, tokenField w, reservedField w⟩

/-- A command without operand: bit 8 must be 0 (R80). -/
def withoutToken (w : Word) (i : Instr) : Except DecodeError Instr :=
  if tokenField w = 0#1 then .ok i else .error .tokenBit

/-- The opcode map of R81 on a word whose reserved bits are 0. -/
def decodeOp (w : Word) : Except DecodeError Instr :=
  if opField w = 0x01#8 then withoutToken w .sysInit
  else if opField w = 0x02#8 then withoutToken w .enterSleep
  else if opField w = 0x03#8 then withoutToken w .enterStop
  else if opField w = 0x04#8 then withoutToken w .exitStop
  else if opField w = 0x10#8 then withoutToken w .clkCold
  else if opField w = 0x11#8 then withoutToken w .clkResume
  else if opField w = 0x20#8 then withoutToken w .calibrate
  else if opField w = 0x30#8 then withoutToken w .csBegin
  else if opField w = 0x31#8 then .ok (.csEnd (tokenField w))
  else .error .unassignedOpcode

/-- Decode a command word (R81, R83). -/
def decodeWord (w : Word) : Except DecodeError Instr :=
  if reservedField w = 0#23 then decodeOp w else .error .reservedBits

/-- Whether a word is the given command. -/
def decodesTo (w : Word) (i : Instr) : Bool :=
  match decodeWord w with
  | .ok j => decide (j = i)
  | .error _ => false

/-- A word from its bytes, the least significant first (R64). -/
def wordOfBytes (b0 b1 b2 b3 : Byte) : Word :=
  b0.setWidth 32 ||| (b1.setWidth 32 <<< 8) ||| (b2.setWidth 32 <<< 16) ||| (b3.setWidth 32 <<< 24)

/-- Byte `k` of a word (R64: bit `i` is bit `i mod 8` of the byte at `off + i div 8`). -/
def byteOfWord (w : Word) (k : Nat) : Byte := w.extractLsb' (8 * k) 8

/-- The bytes of a word as stored. -/
def bytesOfWord (w : Word) : List Byte :=
  [byteOfWord w 0, byteOfWord w 1, byteOfWord w 2, byteOfWord w 3]

/-- Decode the command at the head of a list of bytes; answer it and the bytes after it. -/
def decode : List Byte → Except DecodeError (Instr × List Byte)
  | b0 :: b1 :: b2 :: b3 :: rest =>
    match decodeWord (wordOfBytes b0 b1 b2 b3) with
    | .ok i => .ok (i, rest)
    | .error e => .error e
  | _ => .error .tooShort

/-- The command an opcode-table word stands for, through the byte decoder: `nbits` bits of `w`, every higher
bit of the 32 being 0. -/
def decodeTableWord (nbits w : Nat) : Option Instr :=
  match decode (bytesOfWord (BitVec.ofNat 32 (w % 2 ^ nbits))) with
  | .ok (i, _) => some i
  | .error _ => none

/-- The fields a command is written with (R81). -/
def encodeFields : Instr → Cmdw
  | .sysInit => ⟨0x01#8, 0#1, 0#23⟩
  | .enterSleep => ⟨0x02#8, 0#1, 0#23⟩
  | .enterStop => ⟨0x03#8, 0#1, 0#23⟩
  | .exitStop => ⟨0x04#8, 0#1, 0#23⟩
  | .clkCold => ⟨0x10#8, 0#1, 0#23⟩
  | .clkResume => ⟨0x11#8, 0#1, 0#23⟩
  | .calibrate => ⟨0x20#8, 0#1, 0#23⟩
  | .csBegin => ⟨0x30#8, 0#1, 0#23⟩
  | .csEnd t => ⟨0x31#8, t, 0#23⟩

/-- The word of the fields: `{rsv, t, op}` (R10, R80). -/
def joinFields (c : Cmdw) : Word := (c.rsv ++ c.t ++ c.op).setWidth 32

/-- The word of a command. -/
def encodeWord (i : Instr) : Word := joinFields (encodeFields i)

/-- The words of a command: every command is one word (R80). -/
def encode (i : Instr) : List Word := [encodeWord i]

/-- A row of R81: a word `w` matches when `w` under the mask is the match value. -/
structure OpcodeRow where
  mnemonic : String
  pattern : Word
  mask : Word
  deriving DecidableEq, Repr

/-- R81's table, in its order. -/
def opcodeTable : List OpcodeRow :=
  [⟨"SYS_INIT", 0x00000001#32, 0xFFFFFFFF#32⟩, ⟨"ENTER_SLEEP", 0x00000002#32, 0xFFFFFFFF#32⟩,
   ⟨"ENTER_STOP", 0x00000003#32, 0xFFFFFFFF#32⟩, ⟨"EXIT_STOP", 0x00000004#32, 0xFFFFFFFF#32⟩,
   ⟨"CLK_COLD", 0x00000010#32, 0xFFFFFFFF#32⟩, ⟨"CLK_RESUME", 0x00000011#32, 0xFFFFFFFF#32⟩,
   ⟨"CALIBRATE", 0x00000020#32, 0xFFFFFFFF#32⟩, ⟨"CS_BEGIN", 0x00000030#32, 0xFFFFFFFF#32⟩,
   ⟨"CS_END", 0x00000031#32, 0xFFFFFEFF#32⟩]

/-- A word matches a row. -/
def OpcodeRow.holds (r : OpcodeRow) (w : Word) : Bool := w &&& r.mask == r.pattern

/-- R81: "A word is legal iff it equals one of the patterns below". -/
def legalWord (w : Word) : Bool := opcodeTable.any fun r => r.holds w

end Sys2Proof
end

