-- ==== Sys2Proof/Config.lean ====
section
/-! DEFINITION. What an implementation fixes (the parameters of R9), the values the environment draws
(`draw(T)` of R12) as plain data, and the free values that nothing constrains. -/

namespace Sys2Proof

/-- The implementation parameters of R9. They are arguments of the step relation (R21); the host's step
function takes the state alone, so the state carries this record and no step changes it (log entry 1). -/
structure Params where
  /-- `P_BLOCK_BASE`: base of the register window. -/
  blockBase : Word
  /-- `P_HAS_USB`: USB lines present, to be parked in EnterStop. -/
  hasUsb : Bool
  /-- `P_WAKE_NEEDS_IE`: the global IE gates wake from Sleep and Stop. -/
  wakeNeedsIe : Bool
  /-- `P_PLL_MUL`. -/
  pllMul : Nat
  /-- `P_PLL_DIV`. -/
  pllDiv : Nat
  /-- `P_AHB_DIV`. -/
  ahbDiv : Nat
  /-- `P_APB1_DIV`. -/
  apb1Div : Nat
  /-- `P_APB2_DIV`. -/
  apb2Div : Nat
  /-- `P_F_CORE_HZ`. -/
  coreHz : Nat
  /-- `P_TICK_HZ`. -/
  tickHz : Nat
  /-- `P_CAL_DURATION`. -/
  calDuration : Nat
  /-- `P_CONSOLE_CAP`. -/
  consoleCap : Nat
  /-- `P_CONSOLE_UNIT_BITS`. -/
  consoleUnitBits : Nat
  deriving DecidableEq, Repr

/-- The parameter types of R9: the base is 4-aligned and the whole window lies below 2^32; the ratio, the
dividers and the core clock are positive naturals, as is the capacity of a buffer whose indices exist. -/
def Params.wf (p : Params) : Bool :=
  p.blockBase.toNat % 4 == 0 && decide (p.blockBase.toNat + 40 ≤ 2 ^ 32)
    && decide (0 < p.pllMul) && decide (0 < p.pllDiv) && decide (0 < p.ahbDiv)
    && decide (0 < p.apb1Div) && decide (0 < p.apb2Div) && decide (0 < p.coreHz)
    && decide (0 < p.consoleCap)

/-- The parameter values `State.reset` carries: the values and defaults R9 states; for the OPEN numbers a
value that log entry 1 names (DESIGN CHOICE). -/
def Params.initial : Params where
  blockBase := 0#32
  hasUsb := false
  wakeNeedsIe := false
  pllMul := 1
  pllDiv := 1
  ahbDiv := 1
  apb1Div := 1
  apb2Div := 1
  coreHz := 1
  tickHz := 1000
  calDuration := 1000
  consoleCap := 1024
  consoleUnitBits := 8

/-- The five interrupt sources of R37, by index. -/
inductive Source where
  | extiWake  -- 0 EXTI_WAKE, "external interrupt"
  | rtcAlarm  -- 1 RTC_ALARM, "RTC alarm"
  | calTimer  -- 2 CAL_TIMER, "timer-completion callback" source
  | sysTick   -- 3 SYSTICK, "periodic system tick"
  | periph    -- 4 PERIPH, every other enabled interrupt, lumped
  deriving DecidableEq, Repr, Inhabited

/-- The power-source classification PWR_SRC (R38): 0 `ExternalPower`, 1 `BatteryPower`. -/
inductive PowerSource where
  | externalPower
  | batteryPower
  deriving DecidableEq, Repr, Inhabited

/-- The status a cold clock step draws (R152). -/
inductive StepStatus where
  | ok
  | fail
  deriving DecidableEq, Repr, Inhabited

/-- The Stop-wake clock draw of R139, before its laws are applied (`lawfulWake`, Machine/Ops.lean). -/
structure WakeDraw where
  vosRdy : Bool
  hseOn : Bool
  hseRdy : Bool
  pllOn : Bool
  pllLock : Bool
  /-- SW = 3 (PLL) when true, SW = 0 (INTERNAL) when false. -/
  swPll : Bool
  /-- SWS = 3 (PLL) when true, SWS = 0 (INTERNAL) when false. -/
  swsPll : Bool
  deriving DecidableEq, Repr, Inhabited

/-- Everything one FSM step may draw. A step reads at most one of these. -/
structure Draws where
  /-- R152: the status the environment supplies to a cold step; `none` when it supplies none. -/
  status : Option StepStatus
  /-- R129, R131: which source is logged, "any one, if several". -/
  wakeSrc : Source
  /-- R139. -/
  wakeClk : WakeDraw
  /-- R194: the wake latency the RTC collaborator measured. -/
  wakeLatency : Word
  deriving DecidableEq, Repr, Inhabited

/-- The values a full reset draws (R270, R271): the fields marked unspecified, and the inputs. -/
structure ResetDraws where
  vosRdy : Bool
  lseOn : Bool
  /-- LSE_RDY = 1 only if LSE_ON = 1 (D55): `resetWith` applies that law. -/
  lseRdy : Bool
  rtcselLse : Bool
  csToken : Bool
  coldPath : Bool
  wuf : Bool
  enableExti : Bool
  enableRtc : Bool
  enablePeriph : Bool
  pwrSrc : PowerSource
  deriving DecidableEq, Repr, Inhabited

/-- FREE VALUE (log entry 4): what an FSM step draws when the agenda lists no step for it.
No body: nothing constrains it. The argument is the state's draw counter. -/
opaque Config.freeDraws : Nat → Draws

/-- FREE VALUE (log entry 6): what a read of a register that holds "no value" returns (R42, R62). -/
opaque Config.freeWord : Nat → Word

end Sys2Proof
end

