-- ==== Sys2Proof/Machine/State.lean ====
section
/-! DEFINITION. The block's state: every field of 10_state.md as plain data (R20 to R47), the model's own
fields (the parameters, the agenda, the read port and the draw counter), and the state right after reset. -/

namespace Sys2Proof.Machine

/-- McuLifecycleState (R32). -/
inductive Lifecycle where
  | uninitialized
  | initialized
  deriving DecidableEq, Repr

/-- CalibrationState (R35); code 3 never occurs (R24). -/
inductive CalState where
  | uncalibrated
  | calibrating
  | calibrated
  deriving DecidableEq, Repr

/-- PowerMode (R34, R248); code 3 never occurs (R24). -/
inductive PowerMode where
  | run
  | sleepLight
  | stop
  deriving DecidableEq, Repr

/-- ClockState (R33), a view of CLKCTRL; code 3 never occurs (R24). -/
inductive ClockState where
  | coldDefault
  | running
  | transitional
  deriving DecidableEq, Repr

/-- The codes of SW and SWS (R26): 0 INTERNAL, 3 PLL; 1 and 2 are never written (D40). -/
inductive ClockSource where
  | internal
  | pll
  deriving DecidableEq, Repr

/-- The commands that start a phase sequence (R100). -/
inductive SeqOp where
  | sysInit
  | enterSleep
  | enterStop
  | exitStop
  | clkCold
  | clkResume
  | calibrate
  deriving DecidableEq, Repr

/-- The values SEQ_PHASE takes (R28); the codes not listed there never occur. -/
inductive Phase where
  | idle
  | siEntry
  | ccVos
  | ccOsc
  | ccPll
  | ccSysclk
  | ccRtcclk
  | ccSystick
  | crVos
  | crHse
  | crPll
  | crSw
  | siConsole
  | siRtc
  | siLeds
  | siPins
  | siLppolicy
  | siAdc
  | siRadio
  | siFirstboot
  | calCheck
  | calArm
  | calWait
  | calRecord
  | siWdg
  | esCsBegin
  | esRadioDeinit
  | esAdcDeinit
  | esPins
  | esCsEnd
  | esBorOff
  | esClrWuf
  | esUlpFwu
  | esHalt
  | xsCsBegin
  | xsCsEnd
  | slHalt
  | fatal
  deriving DecidableEq, Repr

/-- The fault codes of R25 and R231. -/
inductive FaultCode where
  | illegalCmd
  | cmdBusy
  | csNest
  | csUnpaired
  | csTokenMismatch
  | clkCfgFail
  | busError
  | stateError
  deriving DecidableEq, Repr

/-- The FAULT register's bits (R25). -/
structure FaultBits where
  illegalCmd : Bool
  cmdBusy : Bool
  csNest : Bool
  csUnpaired : Bool
  csTokenMismatch : Bool
  clkCfgFail : Bool
  busError : Bool
  stateError : Bool
  deriving DecidableEq, Repr

/-- CLKCTRL (R26). -/
structure ClkCtrl where
  vosFull : Bool
  vosRdy : Bool
  hseOn : Bool
  hseRdy : Bool
  lseOn : Bool
  lseRdy : Bool
  pllOn : Bool
  pllLock : Bool
  pllSrcHse : Bool
  sw : ClockSource
  sws : ClockSource
  busdivSet : Bool
  rtcselLse : Bool
  systickOn : Bool
  deriving DecidableEq, Repr

/-- PWRCTRL (R38). -/
structure PwrCtrl where
  borEn : Bool
  ulp : Bool
  fwu : Bool
  regLp : Bool
  fullShutdownEn : Bool
  pwrSrc : PowerSource
  deriving DecidableEq, Repr

/-- PERIPH (R39). -/
structure Periph where
  consoleInit : Bool
  rtcInit : Bool
  ledsOff : Bool
  unusedPinsLp : Bool
  adcInit : Bool
  radioBusInit : Bool
  radioDbgInit : Bool
  wdgInit : Bool
  stopPinsLp : Bool
  deriving DecidableEq, Repr

/-- IRQ.PENDING[4:0] (R37). -/
structure Pending where
  extiWake : Bool
  rtcAlarm : Bool
  calTimer : Bool
  sysTick : Bool
  periph : Bool
  deriving DecidableEq, Repr

/-- IRQ.ENABLE[4:0] (R37) but for ENABLE[SYSTICK], which "always equals SYSTICK_ON" and is computed from it. -/
structure Enable where
  extiWake : Bool
  rtcAlarm : Bool
  calTimer : Bool
  periph : Bool
  deriving DecidableEq, Repr

/-- CAL (R40). -/
structure CalBits where
  timerArmed : Bool
  calDone : Bool
  deriving DecidableEq, Repr

/-- INSTR (R41): each counter wraps at its width. -/
structure Counters where
  coldSeq : BitVec 8
  calArm : BitVec 8
  resumeSeq : BitVec 16
  deriving DecidableEq, Repr

/-- The contents of a console buffer: (index, unit) pairs in one canonical form, indices strictly rising.
An unlisted index holds no value (R43). -/
abbrev Memory := List (Nat × Nat)

/-- A console ring buffer (R43). An index is `none` while it holds no value, which is the spec's own state
of it until SI_CONSOLE. -/
structure Ring where
  head : Option Nat
  tail : Option Nat
  contents : Memory
  deriving DecidableEq, Repr

/-- The fields of CLKCTRL the FSM writes, as `ClkWrite` names them (R45). -/
inductive ClkField where
  | vosFull
  | hseOn
  | lseOn
  | pllSrcHse
  | pllOn
  | sw
  | busdivSet
  | rtcselLse
  | systickOn
  deriving DecidableEq, Repr

/-- The power fields the FSM writes, as `PwrWrite` names them (R45, R107, R126 to R129). -/
inductive PwrField where
  | fullShutdownEn
  | borEn
  | wuf
  | ulp
  | fwu
  | regLp
  deriving DecidableEq, Repr

/-- The conditions `Observed` names (R45). -/
inductive Cond where
  | vosRdy
  | hseLseRdy
  | hseRdy
  | pllLock
  | swsPll
  deriving DecidableEq, Repr

/-- The collaborators `Init` and `Deinit` name (R45). -/
inductive Collab where
  | console
  | rtc
  | adc
  | radioBus
  | radioDbg
  | wdg
  deriving DecidableEq, Repr

/-- The pin groups `PinsLowLeak` names (R45, R124). -/
inductive PinGroup where
  | osc
  | usb
  deriving DecidableEq, Repr

/-- The events of the history (R45). A written bit is logged as 0 or 1, a written SW as its code. -/
inductive LogEvent where
  | cmd (op : SeqOp)
  | clkWrite (field : ClkField) (v : Nat)
  | pwrWrite (field : PwrField) (v : Nat)
  | observed (cond : Cond)
  | status (step : Nat) (st : StepStatus)
  | init (p : Collab)
  | deinit (p : Collab)
  | ledsOff
  | unusedPinsLp
  | pinsLowLeak (g : PinGroup)
  | timerArm (d : Nat)
  | recordWakeLatency (wl : Word)
  | csBegin (tok : Bool)
  | csEnd (tok : Bool)
  | halt (mode : PowerMode)
  | wake (mode : PowerMode) (src : Source)
  | handler (src : Source)
  | fault (code : FaultCode)
  | fatal
  | reset
  deriving DecidableEq, Repr

/-- An access to the register window by the main or a handler context (R60): `MemRead(addr, size)` and
`MemWrite(addr, size, data)`. Sizes other than 4 are not admitted (R61). -/
inductive Access where
  | read (addr : Word) (size : Nat)
  | write (addr : Word) (size : Nat) (data : Word)
  deriving DecidableEq, Repr

/-- The two console buffers (R43). -/
inductive RingId where
  | tx
  | rx
  deriving DecidableEq, Repr

/-- What the console collaborator may do to its buffer (R43). -/
inductive RingAction where
  | setHead (index : Nat)
  | setTail (index : Nat)
  | store (index : Nat) (unit : Nat)
  deriving DecidableEq, Repr

/-- The changes the environment may make (R44): the clock-tree inputs of R175, the pending bits of R235, the
enables of D51, the power source of D29, and the console collaborator's own (R43). -/
inductive EnvAction where
  | raiseVosRdy
  | raiseHseRdy
  | raiseLseRdy
  | raisePllLock
  | updateSws
  | setPending (s : Source)
  | setEnable (s : Source) (on : Bool)
  | setPwrSrc (p : PowerSource)
  | console (r : RingId) (a : RingAction)
  deriving DecidableEq, Repr

/-- One step of one agent (R8), as the agenda lists it: the main context's access, an FSM step with what it
draws, a handler step with the handler's accesses, a step of the environment, a full reset (R270). -/
inductive Action where
  | main (a : Access)
  | fsm (d : Draws)
  | handler (s : Source) (body : List Access)
  | env (e : EnvAction)
  | reset (d : ResetDraws)
  deriving DecidableEq, Repr

/-- The block state (R21), and after it the model's own fields. -/
structure State where
  /-- SEQ_PHASE, the FSM's program counter (R27, R28). -/
  seqPhase : Phase
  /-- CUR_CMD (R29): `none` is code 0x00, no command runs. -/
  curCmd : Option SeqOp
  /-- ISSUED (R30). -/
  issued : Bool
  /-- COLD_PATH (R31). -/
  coldPath : Bool
  /-- LIFECYCLE (R32). -/
  lifecycle : Lifecycle
  /-- CAL_STATE (R35). -/
  calState : CalState
  /-- POWER_MODE (R34). -/
  powerMode : PowerMode
  /-- CS_ACTIVE (R36). -/
  csActive : Bool
  /-- IE, the global interrupt enable (R36). -/
  ie : Bool
  /-- CS_TOKEN (R36). -/
  csToken : Bool
  /-- WUF, the pending wake flag (R38). -/
  wuf : Bool
  /-- FAULT (R25). -/
  fault : FaultBits
  /-- CLKCTRL (R26). -/
  clk : ClkCtrl
  /-- PWRCTRL (R38). -/
  pwr : PwrCtrl
  /-- PERIPH (R39). -/
  periph : Periph
  /-- IRQ.PENDING (R37). -/
  pending : Pending
  /-- IRQ.ENABLE (R37). -/
  enable : Enable
  /-- CAL (R40). -/
  cal : CalBits
  /-- INSTR (R41). -/
  counters : Counters
  /-- WAKE_LATENCY (R42): "a model holds it as 'no value'" until CAL_RECORD. -/
  wakeLatency : Option Word
  /-- TXBUF (R43). -/
  txbuf : Ring
  /-- RXBUF (R43). -/
  rxbuf : Ring
  /-- EVT (R45), in order, the oldest event first. -/
  evt : List LogEvent
  /-- MODEL'S OWN (log entry 1): the parameters of R9. No step changes them. -/
  params : Params
  /-- MODEL'S OWN (log entry 2): the agents' next steps, the first to be taken next. -/
  agenda : List Action
  /-- MODEL'S OWN (log entry 11): the word the last read of the window returned. -/
  readData : Option Word
  /-- MODEL'S OWN (log entry 4): the free-value counter. -/
  tick : Nat
  deriving DecidableEq, Repr

/-- Why the machine would stop with a fault. There is no such reason: a fault of the block is a sticky bit
after which "the FSM keeps running" (R230), FATAL is a phase (R233) and a hang is an infinite run (R234), so
every step answers a next state (log entry 12). -/
inductive Fault where
  deriving DecidableEq, Repr

/-- Why an instruction has no meaning here. -/
inductive Refusal where
  /-- Raised by an arm of `exec` whose instruction has no meaning yet; safe. No arm raises it. -/
  | notModelled (mnemonic : String)
  deriving DecidableEq, Repr

/-- No fault bit is set (R271). -/
def FaultBits.zero : FaultBits where
  illegalCmd := false
  cmdBusy := false
  csNest := false
  csUnpaired := false
  csTokenMismatch := false
  clkCfgFail := false
  busError := false
  stateError := false

/-- A console buffer before SI_CONSOLE: no value (R43). -/
def Ring.noValue : Ring where
  head := none
  tail := none
  contents := []

/-- The state right after reset (R271). A field the spec leaves unspecified, or draws, holds the value of the
"Fixed draws" of 95_test_vectors.md section 0 (log entry 5, DESIGN CHOICE); a reset within a run draws them
anew (`resetWith`). -/
def State.reset : State where
  seqPhase := .idle
  curCmd := none
  issued := false
  coldPath := false
  lifecycle := .uninitialized
  calState := .uncalibrated
  powerMode := .run
  csActive := false
  ie := true
  csToken := false
  wuf := false
  fault := FaultBits.zero
  clk :=
    { vosFull := false, vosRdy := false, hseOn := false, hseRdy := false, lseOn := false, lseRdy := false,
      pllOn := false, pllLock := false, pllSrcHse := false, sw := .internal, sws := .internal,
      busdivSet := false, rtcselLse := false, systickOn := false }
  pwr :=
    { borEn := true, ulp := false, fwu := false, regLp := false, fullShutdownEn := true,
      pwrSrc := .batteryPower }
  periph :=
    { consoleInit := false, rtcInit := false, ledsOff := false, unusedPinsLp := false, adcInit := false,
      radioBusInit := false, radioDbgInit := false, wdgInit := false, stopPinsLp := false }
  pending := { extiWake := false, rtcAlarm := false, calTimer := false, sysTick := false, periph := false }
  enable := { extiWake := true, rtcAlarm := true, calTimer := false, periph := false }
  cal := { timerArmed := false, calDone := false }
  counters := { coldSeq := 0#8, calArm := 0#8, resumeSeq := 0#16 }
  wakeLatency := none
  txbuf := Ring.noValue
  rxbuf := Ring.noValue
  evt := [.reset]
  params := Params.initial
  agenda := []
  readData := none
  tick := 0

end Sys2Proof.Machine
end

