-- ==== Sys2Proof/Machine/Ops.lean ====
section
/-! DEFINITION. The named operations every meaning is written with: logging, moving the FSM, raising a fault
(the block's one way of taking an exception: R230, R241), fields by source, the laws of the drawn values, and
the console buffers' contents. -/

namespace Sys2Proof.Machine

/-! ### The event history and the FSM's program counter -/

/-- `log(E)` (R12): append the event to EVT. -/
def log (e : LogEvent) (s : State) : State :=
  { s with evt := s.evt ++ [e] }

/-- `next P` (R11): `S.SEQ_PHASE <- P`. -/
def goto (p : Phase) (s : State) : State :=
  { s with seqPhase := p }

/-- `done`: `S.SEQ_PHASE <- IDLE; S.CUR_CMD <- 0x00; S.ISSUED <- 0` (40_sequencer.md, template). -/
def done (s : State) : State :=
  { s with seqPhase := .idle, curCmd := none, issued := false }

/-! ### Faults -/

/-- Set one bit of FAULT (R25). -/
def FaultBits.set (c : FaultCode) (f : FaultBits) : FaultBits :=
  match c with
  | .illegalCmd => { f with illegalCmd := true }
  | .cmdBusy => { f with cmdBusy := true }
  | .csNest => { f with csNest := true }
  | .csUnpaired => { f with csUnpaired := true }
  | .csTokenMismatch => { f with csTokenMismatch := true }
  | .clkCfgFail => { f with clkCfgFail := true }
  | .busError => { f with busError := true }
  | .stateError => { f with stateError := true }

/-- Read one bit of FAULT (R25). -/
def FaultBits.get (f : FaultBits) (c : FaultCode) : Bool :=
  match c with
  | .illegalCmd => f.illegalCmd
  | .cmdBusy => f.cmdBusy
  | .csNest => f.csNest
  | .csUnpaired => f.csUnpaired
  | .csTokenMismatch => f.csTokenMismatch
  | .clkCfgFail => f.clkCfgFail
  | .busError => f.busError
  | .stateError => f.stateError

/-- `raise Fault(code)` (R12, R230): set the sticky bit and log it. Nothing is saved, no mode changes, no
vector is read (R241). -/
def raiseFault (c : FaultCode) (s : State) : State :=
  { s with fault := s.fault.set c, evt := s.evt ++ [.fault c] }

/-! ### Interrupt bits by source (R37) -/

/-- PENDING[s]. -/
def Pending.get (p : Pending) (src : Source) : Bool :=
  match src with
  | .extiWake => p.extiWake
  | .rtcAlarm => p.rtcAlarm
  | .calTimer => p.calTimer
  | .sysTick => p.sysTick
  | .periph => p.periph

/-- PENDING[s] <- b. -/
def Pending.set (src : Source) (b : Bool) (p : Pending) : Pending :=
  match src with
  | .extiWake => { p with extiWake := b }
  | .rtcAlarm => { p with rtcAlarm := b }
  | .calTimer => { p with calTimer := b }
  | .sysTick => { p with sysTick := b }
  | .periph => { p with periph := b }

/-- ENABLE[s]; ENABLE[SYSTICK] equals SYSTICK_ON (R37). -/
def enabled (s : State) (src : Source) : Bool :=
  match src with
  | .extiWake => s.enable.extiWake
  | .rtcAlarm => s.enable.rtcAlarm
  | .calTimer => s.enable.calTimer
  | .sysTick => s.clk.systickOn
  | .periph => s.enable.periph

/-! ### The laws of drawn values -/

/-- The Stop-wake draw of R139 under its laws: HSE_RDY needs HSE_ON; PLL_LOCK needs PLL_ON and HSE_RDY; SW = 3
needs PLL_ON; SWS = 3 needs PLL_LOCK. A draw that obeys them is left as it is (log entry 7). -/
def lawfulWake (d : WakeDraw) : WakeDraw :=
  let hseRdy := d.hseOn && d.hseRdy
  let pllLock := d.pllOn && hseRdy && d.pllLock
  { d with hseRdy := hseRdy, pllLock := pllLock, swPll := d.pllOn && d.swPll, swsPll := pllLock && d.swsPll }

/-- A clock-source code from a drawn bit (D40). -/
def sourceOf (isPll : Bool) : ClockSource :=
  if isPll then .pll else .internal

/-- R139 on the clock fields: the drawn ones are replaced, PLL_SRC_HSE, VOS_FULL, LSE_ON, LSE_RDY, RTCSEL_LSE,
BUSDIV_SET and SYSTICK_ON keep their values. -/
def ClkCtrl.afterWake (d : WakeDraw) (c : ClkCtrl) : ClkCtrl :=
  let w := lawfulWake d
  { c with vosRdy := w.vosRdy, hseOn := w.hseOn, hseRdy := w.hseRdy, pllOn := w.pllOn, pllLock := w.pllLock, sw := sourceOf w.swPll, sws := sourceOf w.swsPll }

/-! ### Console buffer contents (R43) -/

/-- The unit held at an index; an unlisted index holds no value. -/
def Memory.read : Memory → Nat → Option Nat
  | [], _ => none
  | (k, v) :: rest, i => if i = k then some v else Memory.read rest i

/-- Store a unit at an index, keeping the indices strictly rising. -/
def Memory.write : Memory → Nat → Nat → Memory
  | [], i, u => [(i, u)]
  | (k, v) :: rest, i, u =>
    if i < k then (i, u) :: (k, v) :: rest
    else if i = k then (i, u) :: rest
    else (k, v) :: Memory.write rest i u

/-- The canonical form: indices strictly rising. No entry can equal what an unlisted index reads as, since
that is no value. -/
def Memory.wf : Memory → Bool
  | [] => true
  | [_] => true
  | (k, _) :: (k', v') :: rest => decide (k < k') && Memory.wf ((k', v') :: rest)

/-- A buffer emptied by SI_CONSOLE: head and tail are 0; the contents are the collaborator's (R43, R103). -/
def Ring.emptied (r : Ring) : Ring :=
  { r with head := some 0, tail := some 0 }

end Sys2Proof.Machine
end

