-- ==== Sys2Proof/Machine/Flags.lean ====
section
/-! DEFINITION. What the block computes from its fields: BUSY, FATAL, CLOCK_STATE, the wake conditions, and
the ten register words (10_state.md). -/

namespace Sys2Proof.Machine

/-! ### Derived flags -/

/-- BUSY = 1 iff SEQ_PHASE ≠ IDLE (R46). -/
def busy (s : State) : Bool := decide (s.seqPhase ≠ .idle)

/-- STATUS.FATAL = 1 iff SEQ_PHASE = FATAL (R24). -/
def isFatal (s : State) : Bool := decide (s.seqPhase = .fatal)

/-- CLOCK_STATE of the clock fields (R33). -/
def ClkCtrl.clockState (c : ClkCtrl) : ClockState :=
  if c.hseOn && c.hseRdy && c.pllOn && c.pllLock && c.pllSrcHse && c.sw == .pll && c.sws == .pll then .running
  else if c.sws == .internal && !c.pllOn then .coldDefault
  else .transitional

/-- CLOCK_STATE (R33): "a function of CLKCTRL, not a stored field". -/
def clockState (s : State) : ClockState := s.clk.clockState

/-- The PLL's ratio while it is on: every write of PLL_ON configures (`P_PLL_MUL`, `P_PLL_DIV`) (R158). -/
def pllRatio (s : State) : Option (Nat × Nat) :=
  if s.clk.pllOn then some (s.params.pllMul, s.params.pllDiv) else none

/-- The bus dividers (AHB, APB1, APB2) while BUSDIV_SET (R26). -/
def busDividers (s : State) : Option (Nat × Nat × Nat) :=
  if s.clk.busdivSet then some (s.params.ahbDiv, s.params.apb1Div, s.params.apb2Div) else none

/-- The tick's rate and the core clock it is derived from, while SYSTICK_ON (R157, R244). -/
def tickRate (s : State) : Option (Nat × Nat) :=
  if s.clk.systickOn then some (s.params.tickHz, s.params.coreHz) else none

/-! ### Wake conditions (R240) -/

/-- `¬P_WAKE_NEEDS_IE ∨ S.IE = 1`. -/
def wakeGate (s : State) : Bool := s.ie || !s.params.wakeNeedsIe

/-- The source is pending, enabled and not gated. -/
def wakes (s : State) (src : Source) : Bool :=
  s.pending.get src && enabled s src && wakeGate s

/-- The sources that wake from Stop (R240, D45). -/
def stopSources : List Source := [.extiWake, .rtcAlarm]

/-- The sources that wake from Sleep (R240, D45). -/
def sleepSources : List Source := [.extiWake, .rtcAlarm, .calTimer, .sysTick, .periph]

/-- StopWake(S). -/
def stopWake (s : State) : Bool := stopSources.any (wakes s)

/-- SleepWake(S). -/
def sleepWake (s : State) : Bool := sleepSources.any (wakes s)

/-- `src`: "the source that satisfied StopWake (any one, if several)" (R129): the drawn source where it is one
of those, else the first that is; `none` where no source satisfies the condition. -/
def wakeSource (sources : List Source) (drawn : Source) (s : State) : Option Source :=
  if sources.contains drawn && wakes s drawn then some drawn else sources.find? (wakes s)

/-! ### Field codes (R24, R26, R28, R29) -/

/-- SEQ_PHASE's code (R28). -/
def Phase.code : Phase → BitVec 6
  | .idle => 0x00#6
  | .siEntry => 0x01#6
  | .ccVos => 0x02#6
  | .ccOsc => 0x03#6
  | .ccPll => 0x04#6
  | .ccSysclk => 0x05#6
  | .ccRtcclk => 0x06#6
  | .ccSystick => 0x07#6
  | .crVos => 0x08#6
  | .crHse => 0x09#6
  | .crPll => 0x0A#6
  | .crSw => 0x0B#6
  | .siConsole => 0x0C#6
  | .siRtc => 0x0D#6
  | .siLeds => 0x0E#6
  | .siPins => 0x0F#6
  | .siLppolicy => 0x10#6
  | .siAdc => 0x11#6
  | .siRadio => 0x12#6
  | .siFirstboot => 0x13#6
  | .calCheck => 0x14#6
  | .calArm => 0x15#6
  | .calWait => 0x16#6
  | .calRecord => 0x17#6
  | .siWdg => 0x18#6
  | .esCsBegin => 0x1A#6
  | .esRadioDeinit => 0x1B#6
  | .esAdcDeinit => 0x1C#6
  | .esPins => 0x1D#6
  | .esCsEnd => 0x1E#6
  | .esBorOff => 0x1F#6
  | .esClrWuf => 0x20#6
  | .esUlpFwu => 0x21#6
  | .esHalt => 0x22#6
  | .xsCsBegin => 0x23#6
  | .xsCsEnd => 0x24#6
  | .slHalt => 0x25#6
  | .fatal => 0x3F#6

/-- CUR_CMD's code: the opcode (R81). -/
def SeqOp.code : SeqOp → BitVec 8
  | .sysInit => 0x01#8
  | .enterSleep => 0x02#8
  | .enterStop => 0x03#8
  | .exitStop => 0x04#8
  | .clkCold => 0x10#8
  | .clkResume => 0x11#8
  | .calibrate => 0x20#8

/-- CUR_CMD as read: 0x00 when no command runs (R29). -/
def curCmdCode (s : State) : BitVec 8 :=
  match s.curCmd with
  | none => 0x00#8
  | some op => op.code

/-- LIFECYCLE's code (R32). -/
def Lifecycle.code : Lifecycle → BitVec 1
  | .uninitialized => 0#1
  | .initialized => 1#1

/-- CAL_STATE's code (R35). -/
def CalState.code : CalState → BitVec 2
  | .uncalibrated => 0#2
  | .calibrating => 1#2
  | .calibrated => 2#2

/-- POWER_MODE's code (R34). -/
def PowerMode.code : PowerMode → BitVec 2
  | .run => 0#2
  | .sleepLight => 1#2
  | .stop => 2#2

/-- CLOCK_STATE's code (R33). -/
def ClockState.code : ClockState → BitVec 2
  | .coldDefault => 0#2
  | .running => 1#2
  | .transitional => 2#2

/-- SW's and SWS's code (R26). -/
def ClockSource.code : ClockSource → BitVec 2
  | .internal => 0#2
  | .pll => 3#2

/-- PWR_SRC's bit (R38). -/
def isBattery (p : PowerSource) : Bool := decide (p = .batteryPower)

/-! ### Register words: bit 0 is the least significant (R10), reserved bits read 0 (R22) -/

/-- A field at its lowest bit. -/
def fieldAt {n : Nat} (lo : Nat) (v : BitVec n) : Word := v.setWidth 32 <<< lo

/-- One bit at its place. -/
def bitAt (i : Nat) (b : Bool) : Word := fieldAt i (BitVec.ofBool b)

/-- STATUS (R24). -/
def statusWord (s : State) : Word :=
  bitAt 0 (busy s) ||| bitAt 1 (isFatal s) ||| fieldAt 2 s.lifecycle.code ||| fieldAt 3 s.calState.code
    ||| fieldAt 5 s.powerMode.code ||| fieldAt 7 (clockState s).code ||| bitAt 9 s.csActive ||| bitAt 10 s.ie
    ||| bitAt 11 s.csToken ||| bitAt 12 s.coldPath ||| bitAt 14 s.wuf ||| bitAt 15 s.issued
    ||| fieldAt 16 s.seqPhase.code ||| fieldAt 24 (curCmdCode s)

/-- FAULT (R25). -/
def faultWord (f : FaultBits) : Word :=
  bitAt 0 f.illegalCmd ||| bitAt 1 f.cmdBusy ||| bitAt 2 f.csNest ||| bitAt 3 f.csUnpaired
    ||| bitAt 4 f.csTokenMismatch ||| bitAt 5 f.clkCfgFail ||| bitAt 6 f.busError ||| bitAt 7 f.stateError

/-- CLKCTRL (R26). -/
def clkctrlWord (c : ClkCtrl) : Word :=
  bitAt 0 c.vosFull ||| bitAt 1 c.vosRdy ||| bitAt 2 c.hseOn ||| bitAt 3 c.hseRdy ||| bitAt 4 c.lseOn
    ||| bitAt 5 c.lseRdy ||| bitAt 6 c.pllOn ||| bitAt 7 c.pllLock ||| bitAt 8 c.pllSrcHse
    ||| fieldAt 9 c.sw.code ||| fieldAt 11 c.sws.code ||| bitAt 13 c.busdivSet ||| bitAt 14 c.rtcselLse
    ||| bitAt 15 c.systickOn

/-- PWRCTRL (R38). -/
def pwrctrlWord (p : PwrCtrl) : Word :=
  bitAt 0 p.borEn ||| bitAt 1 p.ulp ||| bitAt 2 p.fwu ||| bitAt 3 p.regLp ||| bitAt 4 p.fullShutdownEn
    ||| bitAt 5 (isBattery p.pwrSrc)

/-- PERIPH (R39). -/
def periphWord (p : Periph) : Word :=
  bitAt 0 p.consoleInit ||| bitAt 1 p.rtcInit ||| bitAt 2 p.ledsOff ||| bitAt 3 p.unusedPinsLp
    ||| bitAt 4 p.adcInit ||| bitAt 5 p.radioBusInit ||| bitAt 6 p.radioDbgInit ||| bitAt 7 p.wdgInit
    ||| bitAt 8 p.stopPinsLp

/-- IRQ (R37): PENDING[4:0] at [4:0], ENABLE[4:0] at [12:8]. -/
def irqWord (s : State) : Word :=
  bitAt 0 s.pending.extiWake ||| bitAt 1 s.pending.rtcAlarm ||| bitAt 2 s.pending.calTimer
    ||| bitAt 3 s.pending.sysTick ||| bitAt 4 s.pending.periph ||| bitAt 8 (enabled s .extiWake)
    ||| bitAt 9 (enabled s .rtcAlarm) ||| bitAt 10 (enabled s .calTimer) ||| bitAt 11 (enabled s .sysTick)
    ||| bitAt 12 (enabled s .periph)

/-- CAL (R40). -/
def calWord (c : CalBits) : Word := bitAt 0 c.timerArmed ||| bitAt 1 c.calDone

/-- INSTR (R41). -/
def instrWord (c : Counters) : Word :=
  fieldAt 0 c.coldSeq ||| fieldAt 8 c.calArm ||| fieldAt 16 c.resumeSeq

/-- WAKE_LATENCY (R42): a read while it holds no value returns a free value. -/
def wakeLatencyWord (s : State) : Word :=
  match s.wakeLatency with
  | some w => w
  | none => Config.freeWord s.tick

end Sys2Proof.Machine
end

