-- ==== Sys2Proof/Machine/Operands.lean ====
section
/-! DEFINITION. The operand forms: CS_END's token (R82), and the window's registers by offset with the
admission of an access (R22, R60, R61, R64). -/

namespace Sys2Proof.Machine

/-- CS_END's operand as the saved IE bit it is compared with (R82, R211). -/
def tokenBit (t : BitVec 1) : Bool := decide (t = 1#1)

/-- The ten registers (R22). -/
inductive Reg where
  | cmd
  | status
  | fault
  | clkctrl
  | pwrctrl
  | periph
  | irq
  | cal
  | instr
  | wakeLatency
  deriving DecidableEq, Repr

/-- The register at an offset (R22). -/
def regAt (off : Nat) : Option Reg :=
  match off with
  | 0x00 => some .cmd
  | 0x04 => some .status
  | 0x08 => some .fault
  | 0x0C => some .clkctrl
  | 0x10 => some .pwrctrl
  | 0x14 => some .periph
  | 0x18 => some .irq
  | 0x1C => some .cal
  | 0x20 => some .instr
  | 0x24 => some .wakeLatency
  | _ => none

/-- `off = addr − P_BLOCK_BASE` (R61), over the integers: an address below the base has none (log entry 13). -/
def offsetOf (p : Params) (addr : Word) : Option Nat :=
  if p.blockBase.toNat ≤ addr.toNat then some (addr.toNat - p.blockBase.toNat) else none

/-- Access admission (R61): size 4, `off mod 4 = 0`, `0 ≤ off ≤ 0x24`. Answers the register accessed. -/
def admittedReg (p : Params) (addr : Word) (size : Nat) : Option Reg :=
  match offsetOf p addr with
  | none => none
  | some off => if size = 4 ∧ off % 4 = 0 ∧ off ≤ 0x24 then regAt off else none

/-- The 32-bit composition of a register (R62). CMD reads 0 (R23). -/
def regWord (s : State) : Reg → Word
  | .cmd => 0#32
  | .status => statusWord s
  | .fault => faultWord s.fault
  | .clkctrl => clkctrlWord s.clk
  | .pwrctrl => pwrctrlWord s.pwr
  | .periph => periphWord s.periph
  | .irq => irqWord s
  | .cal => calWord s.cal
  | .instr => instrWord s.counters
  | .wakeLatency => wakeLatencyWord s

/-- The byte of the window at an address, as a byte-wise viewer would see it (R64); `none` outside the
window. -/
def windowByte (s : State) (addr : Word) : Option Byte :=
  match offsetOf s.params addr with
  | none => none
  | some off =>
    match regAt (off / 4 * 4) with
    | none => none
    | some r => some (byteOfWord (regWord s r) (off % 4))

end Sys2Proof.Machine
end

