-- ==== Sys2Proof/Machine/Environment.lean ====
section
/-! DEFINITION. The environment: hardware readiness (R175), interrupt sources (R235), environment inputs (R44,
D51), the console collaborator (R43), and the full reset (R270). A change that is not permitted does not
happen (log entry 3). -/

namespace Sys2Proof.Machine

/-- R175: when each clock-tree input may change. -/
def vosMayRise (c : ClkCtrl) : Bool := !c.vosRdy && c.vosFull
/-- R175. -/
def hseMayRise (c : ClkCtrl) : Bool := !c.hseRdy && c.hseOn
/-- R175. -/
def lseMayRise (c : ClkCtrl) : Bool := !c.lseRdy && c.lseOn
/-- R175. -/
def lockMayRise (c : ClkCtrl) : Bool := !c.pllLock && c.pllOn && c.pllSrcHse && c.hseRdy
/-- R175: `x → SW if SW = 0, or SW = 3 ∧ PLL_LOCK = 1`. -/
def swsMayFollow (c : ClkCtrl) : Bool := c.sw == .internal || c.pllLock

/-- R235: when a PENDING bit may be set. -/
def mayPend (s : State) (src : Source) : Bool :=
  match src with
  | .extiWake => true
  | .rtcAlarm => true
  | .calTimer => s.cal.timerArmed && !s.pending.calTimer
  | .sysTick => s.clk.systickOn
  | .periph => true

/-- R235: set PENDING[s]; "Setting PENDING[0] or PENDING[1] also sets WUF (D46)". -/
def pend (src : Source) (s : State) : State :=
  { s with pending := s.pending.set src true, wuf := s.wuf || stopSources.contains src }

/-- D51: ENABLE[0], ENABLE[1] and ENABLE[4] are environment inputs; the other two are not. -/
def Enable.input (src : Source) (b : Bool) (e : Enable) : Enable :=
  match src with
  | .extiWake => { e with extiWake := b }
  | .rtcAlarm => { e with rtcAlarm := b }
  | .periph => { e with periph := b }
  | .calTimer => e
  | .sysTick => e

/-- What the console collaborator does to one buffer (R43): indices in 0..P_CONSOLE_CAP−1, units of
P_CONSOLE_UNIT_BITS bits, and only once SI_CONSOLE has given the indices a value (log entry 14). -/
def Ring.act (p : Params) (a : RingAction) (r : Ring) : Ring :=
  if r.head.isSome && r.tail.isSome then
    match a with
    | .setHead i => if i < p.consoleCap then { r with head := some i } else r
    | .setTail i => if i < p.consoleCap then { r with tail := some i } else r
    | .store i u =>
      if i < p.consoleCap ∧ u < 2 ^ p.consoleUnitBits then { r with contents := r.contents.write i u } else r
  else r

/-- One change by the environment, where it is permitted. -/
def envStep (e : EnvAction) (s : State) : State :=
  match e with
  | .raiseVosRdy => if vosMayRise s.clk then { s with clk := { s.clk with vosRdy := true } } else s
  | .raiseHseRdy => if hseMayRise s.clk then { s with clk := { s.clk with hseRdy := true } } else s
  | .raiseLseRdy => if lseMayRise s.clk then { s with clk := { s.clk with lseRdy := true } } else s
  | .raisePllLock => if lockMayRise s.clk then { s with clk := { s.clk with pllLock := true } } else s
  | .updateSws => if swsMayFollow s.clk then { s with clk := { s.clk with sws := s.clk.sw } } else s
  | .setPending src => if mayPend s src then pend src s else s
  | .setEnable src b => { s with enable := s.enable.input src b }
  | .setPwrSrc p => { s with pwr := { s.pwr with pwrSrc := p } }
  | .console .tx a => { s with txbuf := s.txbuf.act s.params a }
  | .console .rx a => { s with rxbuf := s.rxbuf.act s.params a }

/-- A full reset with its draws (R270, R271): every field of 10_state.md takes its reset value, EVT becomes
`[Reset]`. The parameters, the agenda's rest and the free-value counter are no fields of the block and stay
(log entry 10). -/
def resetWith (d : ResetDraws) (s : State) : State where
  seqPhase := .idle
  curCmd := none
  issued := false
  coldPath := d.coldPath
  lifecycle := .uninitialized
  calState := .uncalibrated
  powerMode := .run
  csActive := false
  ie := true
  csToken := d.csToken
  wuf := d.wuf
  fault := FaultBits.zero
  clk :=
    { vosFull := false, vosRdy := d.vosRdy, hseOn := false, hseRdy := false, lseOn := d.lseOn,
      lseRdy := d.lseOn && d.lseRdy, pllOn := false, pllLock := false, pllSrcHse := false, sw := .internal,
      sws := .internal, busdivSet := false, rtcselLse := d.rtcselLse, systickOn := false }
  pwr :=
    { borEn := true, ulp := false, fwu := false, regLp := false, fullShutdownEn := true, pwrSrc := d.pwrSrc }
  periph :=
    { consoleInit := false, rtcInit := false, ledsOff := false, unusedPinsLp := false, adcInit := false,
      radioBusInit := false, radioDbgInit := false, wdgInit := false, stopPinsLp := false }
  pending := { extiWake := false, rtcAlarm := false, calTimer := false, sysTick := false, periph := false }
  enable :=
    { extiWake := d.enableExti, rtcAlarm := d.enableRtc, calTimer := false, periph := d.enablePeriph }
  cal := { timerArmed := false, calDone := false }
  counters := { coldSeq := 0#8, calArm := 0#8, resumeSeq := 0#16 }
  wakeLatency := none
  txbuf := Ring.noValue
  rxbuf := Ring.noValue
  evt := [.reset]
  params := s.params
  agenda := s.agenda
  readData := none
  tick := s.tick

end Sys2Proof.Machine
end

