-- ==== Sys2Proof/Machine/Accept.lean ====
section
/-! DEFINITION. Command acceptance (R84 steps 3 to 5, R100), shared by the seven sequence commands. -/

namespace Sys2Proof.Machine

/-- The first phase of a command's sequence (R100). -/
def firstPhase : SeqOp → Phase
  | .sysInit => .siEntry
  | .enterStop => .esCsBegin
  | .enterSleep => .slHalt
  | .exitStop => .xsCsBegin
  | .clkCold => .ccVos
  | .clkResume => .crVos
  | .calibrate => .calCheck

/-- `op ∈ {ENTER_STOP, EXIT_STOP}`: the commands that need LIFECYCLE = 1 (R84 step 4, D8). -/
def needsInitialized : SeqOp → Bool
  | .enterStop => true
  | .exitStop => true
  | .sysInit => false
  | .enterSleep => false
  | .clkCold => false
  | .clkResume => false
  | .calibrate => false

/-- `S.CUR_CMD <- op; S.ISSUED <- 0; log(Cmd(op)); next first phase` (R100). -/
def start (op : SeqOp) (s : State) : State :=
  { s with curCmd := some op, issued := false, evt := s.evt ++ [.cmd op], seqPhase := firstPhase op }

/-- A legal CMD write of a sequence command (R100): CMD_BUSY, else STATE_ERROR, else acceptance. -/
def accept (op : SeqOp) (s : State) : State :=
  if busy s then raiseFault .cmdBusy s
  else if needsInitialized op && decide (s.lifecycle = .uninitialized) then raiseFault .stateError s
  else start op s

end Sys2Proof.Machine
end

