-- ==== Sys2Proof/Machine/Calibrator.lean ====
section
/-! DEFINITION. The Wake-Latency Calibrator (42_calibrator.md): the command CALIBRATE and one definition per
phase CAL_*. -/

namespace Sys2Proof.Machine

/-- CALIBRATE (R190), the stand-alone form (D33): accepted into CAL_CHECK. -/
def execCalibrate (s : State) : Host.Outcome State Fault Refusal :=
  .next (accept .calibrate s)

/-- The calibrator's return (R195). -/
def calReturn (s : State) : State :=
  if s.curCmd = some .sysInit then goto .siWdg s else done s

/-- CAL_CHECK (R191): "no-op if already `Calibrated`"; nothing is logged on that path. -/
def calCheck (s : State) : State :=
  if s.calState = .calibrated then calReturn s else goto .calArm s

/-- CAL_ARM (R192). -/
def calArm (s : State) : State :=
  { s with calState := .calibrating, cal := { s.cal with timerArmed := true, calDone := false }, enable := { s.enable with calTimer := true }, counters := { s.counters with calArm := s.counters.calArm + 1 }, evt := s.evt ++ [.timerArm s.params.calDuration], seqPhase := .calWait }

/-- CAL_WAIT (R193). -/
def calWait (s : State) : Option State :=
  if s.cal.calDone then some (goto .calRecord s) else none

/-- CAL_RECORD (R194): the recorded value is a draw. -/
def calRecord (d : Draws) (s : State) : State :=
  calReturn { s with wakeLatency := some d.wakeLatency, evt := s.evt ++ [.recordWakeLatency d.wakeLatency], calState := .calibrated }

end Sys2Proof.Machine
end

