-- ==== Sys2Proof/Machine/Clock.lean ====
section
/-! DEFINITION. The Clock Controller's sequence engine and the PLL bring-up controller (41_clock.md): the
commands CLK_COLD and CLK_RESUME, and one definition per phase CC_* and CR_*. A phase with a poll is two
steps (R30): issue with ISSUED = 0, completion with ISSUED = 1. -/

namespace Sys2Proof.Machine

/-! ### The commands -/

/-- CLK_COLD (R150), the stand-alone form (D33): accepted into CC_VOS. -/
def execClkCold (s : State) : Host.Outcome State Fault Refusal :=
  .next (accept .clkCold s)

/-- CLK_RESUME (R160), the stand-alone form (D33): accepted into CR_VOS. -/
def execClkResume (s : State) : Host.Outcome State Fault Refusal :=
  .next (accept .clkResume s)

/-! ### Cold-step completion (R152) -/

/-- `st = FAIL`: log the step's status, raise CLK_CFG_FAIL, trap in FATAL (R152, R233). Nothing rolls back. -/
def coldFail (k : Nat) (s : State) : State :=
  let t := raiseFault .clkCfgFail (log (.status k .fail) s)
  { t with evt := t.evt ++ [.fatal], issued := false, seqPhase := .fatal }

/-- `st = OK`: log what the completion observed and the step's status, and go on. -/
def coldOk (k : Nat) (seen : List LogEvent) (succ : Phase) (s : State) : State :=
  { s with evt := s.evt ++ (seen ++ [.status k .ok]), issued := false, seqPhase := succ }

/-- R152: FAIL is allowed at any step, OK only when the step's condition holds; otherwise there is no step. -/
def coldComplete (k : Nat) (cond : Bool) (seen : List LogEvent) (succ : Phase) (d : Draws) (s : State) :
    Option State :=
  match d.status with
  | some .fail => some (coldFail k s)
  | some .ok => if cond then some (coldOk k seen succ s) else none
  | none => none

/-! ### The cold sequence -/

/-- CC_VOS's writes (R151). -/
def ccVosIssue (s : State) : State :=
  { s with clk := { s.clk with vosFull := true }, counters := { s.counters with coldSeq := s.counters.coldSeq + 1 }, evt := s.evt ++ [.clkWrite .vosFull 1], issued := true }

/-- CC_VOS (R151), step 1. -/
def ccVos (d : Draws) (s : State) : Option State :=
  if s.issued then coldComplete 1 s.clk.vosRdy [.observed .vosRdy] .ccOsc d s
  else some (ccVosIssue s)

/-- CC_OSC's writes (R153). -/
def ccOscIssue (s : State) : State :=
  { s with clk := { s.clk with hseOn := true, lseOn := true }, evt := s.evt ++ [.clkWrite .hseOn 1, .clkWrite .lseOn 1], issued := true }

/-- CC_OSC (R153), step 2: OK needs HSE_RDY and LSE_RDY (D11). -/
def ccOsc (d : Draws) (s : State) : Option State :=
  if s.issued then coldComplete 2 (s.clk.hseRdy && s.clk.lseRdy) [.observed .hseLseRdy] .ccPll d s
  else some (ccOscIssue s)

/-- The writes that enable the PLL with source HSE and the ratio of R158, in CC_PLL and CR_PLL alike. -/
def pllIssue (s : State) : State :=
  { s with clk := { s.clk with pllSrcHse := true, pllOn := true }, evt := s.evt ++ [.clkWrite .pllSrcHse 1, .clkWrite .pllOn 1], issued := true }

/-- CC_PLL (R154), step 3. -/
def ccPll (d : Draws) (s : State) : Option State :=
  if s.issued then coldComplete 3 s.clk.pllLock [.observed .pllLock] .ccSysclk d s
  else some (pllIssue s)

/-- CC_SYSCLK's writes (R155). -/
def ccSysclkIssue (s : State) : State :=
  { s with clk := { s.clk with sw := .pll, busdivSet := true }, evt := s.evt ++ [.clkWrite .sw 3, .clkWrite .busdivSet 1], issued := true }

/-- CC_SYSCLK (R155), step 4. -/
def ccSysclk (d : Draws) (s : State) : Option State :=
  if s.issued then coldComplete 4 (s.clk.sws == .pll) [.observed .swsPll] .ccRtcclk d s
  else some (ccSysclkIssue s)

/-- CC_RTCCLK's writes (R156). -/
def ccRtcclkIssue (s : State) : State :=
  { s with clk := { s.clk with rtcselLse := true }, evt := s.evt ++ [.clkWrite .rtcselLse 1], issued := true }

/-- CC_RTCCLK (R156), step 5: its condition is true and nothing is observed (R152). -/
def ccRtcclk (d : Draws) (s : State) : Option State :=
  if s.issued then coldComplete 5 true [] .ccSystick d s
  else some (ccRtcclkIssue s)

/-- CC_SYSTICK (R157), step 6: no status is drawn (D34). -/
def ccSystick (s : State) : State :=
  let t := { s with clk := { s.clk with systickOn := true }, evt := s.evt ++ [.clkWrite .systickOn 1] }
  if s.curCmd = some .sysInit then goto .siConsole t else done t

/-! ### The resume sequence -/

/-- A resume step's completion: `wait(cond); log(Observed(cond)); S.ISSUED <- 0; next succ`. -/
def resumeComplete (cond : Bool) (seen : Cond) (succ : Phase) (s : State) : Option State :=
  if cond then some { s with evt := s.evt ++ [.observed seen], issued := false, seqPhase := succ } else none

/-- CR_VOS's writes (R161). -/
def crVosIssue (s : State) : State :=
  { s with clk := { s.clk with vosFull := true }, counters := { s.counters with resumeSeq := s.counters.resumeSeq + 1 }, evt := s.evt ++ [.clkWrite .vosFull 1], issued := true }

/-- CR_VOS (R161). -/
def crVos (s : State) : Option State :=
  if s.issued then resumeComplete s.clk.vosRdy .vosRdy .crHse s else some (crVosIssue s)

/-- CR_HSE's writes (R162). -/
def crHseIssue (s : State) : State :=
  { s with clk := { s.clk with hseOn := true }, evt := s.evt ++ [.clkWrite .hseOn 1], issued := true }

/-- CR_HSE (R162). -/
def crHse (s : State) : Option State :=
  if s.issued then resumeComplete s.clk.hseRdy .hseRdy .crPll s else some (crHseIssue s)

/-- CR_PLL (R163): "the same ratio as cold configuration" (R158). -/
def crPll (s : State) : Option State :=
  if s.issued then resumeComplete s.clk.pllLock .pllLock .crSw s else some (pllIssue s)

/-- CR_SW's writes (R164). -/
def crSwIssue (s : State) : State :=
  { s with clk := { s.clk with sw := .pll }, evt := s.evt ++ [.clkWrite .sw 3], issued := true }

/-- CR_SW's completion (R164): on to SI_ADC for SYS_INIT and EXIT_STOP, else the call returns. -/
def crSwDone (s : State) : State :=
  let t := { s with evt := s.evt ++ [.observed .swsPll], issued := false }
  if s.curCmd = some .sysInit ∨ s.curCmd = some .exitStop then goto .siAdc t else done t

/-- CR_SW (R164). -/
def crSw (s : State) : Option State :=
  if s.issued then (if s.clk.sws == .pll then some (crSwDone s) else none) else some (crSwIssue s)

end Sys2Proof.Machine
end

