-- ==== Sys2Proof/Machine/CriticalSection.lean ====
section
/-! DEFINITION. The Critical Section unit (43_critical_section.md): the effects the commands and the FSM's
phases ES_CS_BEGIN, ES_CS_END, XS_CS_BEGIN, XS_CS_END share, and the commands CS_BEGIN and CS_END. -/

namespace Sys2Proof.Machine

/-- Begin (R210): CS_NEST in an open section, else save IE in the token, clear IE, open the section. -/
def csBegin (s : State) : State :=
  if s.csActive then raiseFault .csNest s
  else { s with csToken := s.ie, ie := false, csActive := true, evt := s.evt ++ [.csBegin s.ie] }

/-- End with a token (R211): CS_UNPAIRED, else CS_TOKEN_MISMATCH, else restore IE and close the section. -/
def csEnd (t : Bool) (s : State) : State :=
  if !s.csActive then raiseFault .csUnpaired s
  else if t != s.csToken then raiseFault .csTokenMismatch s
  else { s with ie := t, csActive := false, evt := s.evt ++ [.csEnd t] }

/-- CS_BEGIN (R210), executed at once in any phase (R84 step 2, R212). -/
def execCsBegin (s : State) : Host.Outcome State Fault Refusal :=
  .next (csBegin s)

/-- CS_END t (R211), executed at once in any phase (R84 step 2, R212). -/
def execCsEnd (t : BitVec 1) (s : State) : Host.Outcome State Fault Refusal :=
  .next (csEnd (tokenBit t) s)

end Sys2Proof.Machine
end

