-- ==== Sys2Proof/Machine/Sequencer.lean ====
section
/-! DEFINITION. The Power-Mode Sequencer (40_sequencer.md): the commands SYS_INIT, ENTER_STOP, ENTER_SLEEP and
EXIT_STOP, whose meaning is their acceptance (R100), and one definition per phase SI_*, ES_*, XS_*, SL_*. A
phase that may have no step answers `none` then (R12: `wait(c)`). -/

namespace Sys2Proof.Machine

/-! ### The commands -/

/-- SYS_INIT (R101): accepted into SI_ENTRY. -/
def execSysInit (s : State) : Host.Outcome State Fault Refusal :=
  .next (accept .sysInit s)

/-- ENTER_SLEEP (R130): accepted into SL_HALT. -/
def execEnterSleep (s : State) : Host.Outcome State Fault Refusal :=
  .next (accept .enterSleep s)

/-- ENTER_STOP (R120): accepted into ES_CS_BEGIN. -/
def execEnterStop (s : State) : Host.Outcome State Fault Refusal :=
  .next (accept .enterStop s)

/-- EXIT_STOP (R140), the explicit form (D32): accepted into XS_CS_BEGIN. -/
def execExitStop (s : State) : Host.Outcome State Fault Refusal :=
  .next (accept .exitStop s)

/-! ### SYS_INIT's phases -/

/-- SI_ENTRY (R102, R31). -/
def siEntry (s : State) : State :=
  let cold := decide (s.lifecycle = .uninitialized)
  { s with coldPath := cold, seqPhase := if cold then .ccVos else .crVos }

/-- SI_CONSOLE (R103). -/
def siConsole (s : State) : State :=
  { s with txbuf := s.txbuf.emptied, rxbuf := s.rxbuf.emptied, periph := { s.periph with consoleInit := true }, evt := s.evt ++ [.init .console], seqPhase := .siRtc }

/-- SI_RTC (R104). -/
def siRtc (s : State) : State :=
  { s with periph := { s.periph with rtcInit := true }, evt := s.evt ++ [.init .rtc], seqPhase := .siLeds }

/-- SI_LEDS (R105). -/
def siLeds (s : State) : State :=
  { s with periph := { s.periph with ledsOff := true }, evt := s.evt ++ [.ledsOff], seqPhase := .siPins }

/-- SI_PINS (R106). -/
def siPins (s : State) : State :=
  { s with periph := { s.periph with unusedPinsLp := true }, evt := s.evt ++ [.unusedPinsLp], seqPhase := .siLppolicy }

/-- SI_LPPOLICY (R107): on battery FULL_SHUTDOWN_EN is cleared; with external power nothing is written. -/
def siLppolicy (s : State) : State :=
  if isBattery s.pwr.pwrSrc then
    { s with pwr := { s.pwr with fullShutdownEn := false }, evt := s.evt ++ [.pwrWrite .fullShutdownEn 0], seqPhase := .siAdc }
  else { s with seqPhase := .siAdc }

/-- SI_ADC (R108). -/
def siAdc (s : State) : State :=
  { s with periph := { s.periph with adcInit := true }, evt := s.evt ++ [.init .adc], seqPhase := .siRadio }

/-- SI_RADIO (R109). -/
def siRadio (s : State) : State :=
  { s with periph := { s.periph with radioBusInit := true, stopPinsLp := false }, evt := s.evt ++ [.init .radioBus], seqPhase := if s.curCmd = some .sysInit ∧ s.coldPath = true then .siFirstboot else .siWdg }

/-- SI_FIRSTBOOT (R110). -/
def siFirstboot (s : State) : State :=
  { s with lifecycle := .initialized, periph := { s.periph with radioDbgInit := true }, evt := s.evt ++ [.init .radioDbg], seqPhase := if isBattery s.pwr.pwrSrc then .calCheck else .siWdg }

/-- SI_WDG (R111). -/
def siWdg (s : State) : State :=
  let t := { s with periph := { s.periph with wdgInit := true }, evt := s.evt ++ [.init .wdg] }
  if s.curCmd = some .exitStop then goto .xsCsEnd t else done t

/-! ### ENTER_STOP's phases -/

/-- ES_CS_BEGIN (R121): the chain goes on after a CS_NEST fault (R230: "the FSM keeps running"). -/
def esCsBegin (s : State) : State := goto .esRadioDeinit (csBegin s)

/-- ES_RADIO_DEINIT (R122). -/
def esRadioDeinit (s : State) : State :=
  { s with periph := { s.periph with radioBusInit := false }, evt := s.evt ++ [.deinit .radioBus], seqPhase := .esAdcDeinit }

/-- ES_ADC_DEINIT (R123). -/
def esAdcDeinit (s : State) : State :=
  { s with periph := { s.periph with adcInit := false }, evt := s.evt ++ [.deinit .adc], seqPhase := .esPins }

/-- ES_PINS (R124). -/
def esPins (s : State) : State :=
  { s with periph := { s.periph with stopPinsLp := true }, evt := s.evt ++ .pinsLowLeak .osc :: (if s.params.hasUsb then [.pinsLowLeak .usb] else []), seqPhase := .esCsEnd }

/-- ES_CS_END (R125): the End effect with `t = S.CS_TOKEN`. -/
def esCsEnd (s : State) : State := goto .esBorOff (csEnd s.csToken s)

/-- ES_BOR_OFF (R126). -/
def esBorOff (s : State) : State :=
  { s with pwr := { s.pwr with borEn := false }, evt := s.evt ++ [.pwrWrite .borEn 0], seqPhase := .esClrWuf }

/-- ES_CLR_WUF (R127): no PENDING bit is cleared (D46). -/
def esClrWuf (s : State) : State :=
  { s with wuf := false, evt := s.evt ++ [.pwrWrite .wuf 0], seqPhase := .esUlpFwu }

/-- ES_ULP_FWU (R128). -/
def esUlpFwu (s : State) : State :=
  { s with pwr := { s.pwr with ulp := true, fwu := true }, evt := s.evt ++ [.pwrWrite .ulp 1, .pwrWrite .fwu 1], seqPhase := .esHalt }

/-- ES_HALT with ISSUED = 0 (R129): the halt instruction. -/
def esHaltIssue (s : State) : State :=
  { s with pwr := { s.pwr with regLp := true }, powerMode := .stop, evt := s.evt ++ [.pwrWrite .regLp 1, .halt .stop], issued := true }

/-- ES_HALT's wake step (R129, R139): into ExitStop's first phase. -/
def stopWakeStep (src : Source) (w : WakeDraw) (s : State) : State :=
  { s with powerMode := .run, evt := s.evt ++ [.wake .stop src], clk := s.clk.afterWake w, curCmd := some .exitStop, issued := false, seqPhase := .xsCsBegin }

/-- ES_HALT (R129). -/
def esHalt (d : Draws) (s : State) : Option State :=
  if s.issued then (wakeSource stopSources d.wakeSrc s).map fun src => stopWakeStep src d.wakeClk s
  else some (esHaltIssue s)

/-! ### EXIT_STOP's phases -/

/-- XS_CS_BEGIN (R141). -/
def xsCsBegin (s : State) : State := goto .crVos (csBegin s)

/-- XS_CS_END (R142): the End effect with `t = S.CS_TOKEN`, then the call returns. -/
def xsCsEnd (s : State) : State := done (csEnd s.csToken s)

/-! ### ENTER_SLEEP's phase -/

/-- SL_HALT with ISSUED = 0 (R131). -/
def slHaltIssue (s : State) : State :=
  { s with powerMode := .sleepLight, evt := s.evt ++ [.halt .sleepLight], issued := true }

/-- SL_HALT's wake step (R131). -/
def sleepWakeStep (src : Source) (s : State) : State :=
  done { s with powerMode := .run, evt := s.evt ++ [.wake .sleepLight src] }

/-- SL_HALT (R131). -/
def slHalt (d : Draws) (s : State) : Option State :=
  if s.issued then (wakeSource sleepSources d.wakeSrc s).map fun src => sleepWakeStep src s
  else some (slHaltIssue s)

end Sys2Proof.Machine
end

