-- ==== Sys2Proof/Machine/Fsm.lean ====
section
/-! DEFINITION. One step of the sequencer FSM (R27): the phase's rule. `none` where the FSM has no step: in
IDLE (R100), in FATAL (R233), and in a wait whose condition does not hold (R12, R234). -/

namespace Sys2Proof.Machine

/-- The FSM's step (R27, R28), with what the environment draws for it. -/
def fsmStep (d : Draws) (s : State) : Option State :=
  match s.seqPhase with
  | .idle => none
  | .siEntry => some (siEntry s)
  | .ccVos => ccVos d s
  | .ccOsc => ccOsc d s
  | .ccPll => ccPll d s
  | .ccSysclk => ccSysclk d s
  | .ccRtcclk => ccRtcclk d s
  | .ccSystick => some (ccSystick s)
  | .crVos => crVos s
  | .crHse => crHse s
  | .crPll => crPll s
  | .crSw => crSw s
  | .siConsole => some (siConsole s)
  | .siRtc => some (siRtc s)
  | .siLeds => some (siLeds s)
  | .siPins => some (siPins s)
  | .siLppolicy => some (siLppolicy s)
  | .siAdc => some (siAdc s)
  | .siRadio => some (siRadio s)
  | .siFirstboot => some (siFirstboot s)
  | .calCheck => some (calCheck s)
  | .calArm => some (calArm s)
  | .calWait => calWait s
  | .calRecord => some (calRecord d s)
  | .siWdg => some (siWdg s)
  | .esCsBegin => some (esCsBegin s)
  | .esRadioDeinit => some (esRadioDeinit s)
  | .esAdcDeinit => some (esAdcDeinit s)
  | .esPins => some (esPins s)
  | .esCsEnd => some (esCsEnd s)
  | .esBorOff => some (esBorOff s)
  | .esClrWuf => some (esClrWuf s)
  | .esUlpFwu => some (esUlpFwu s)
  | .esHalt => esHalt d s
  | .xsCsBegin => some (xsCsBegin s)
  | .xsCsEnd => some (xsCsEnd s)
  | .slHalt => slHalt d s
  | .fatal => none

/-- The FSM's turn: its step, or nothing while it has none. A wait whose condition never holds is then an
infinite run (R234, log entry 3). -/
def fsmTurn (d : Draws) (s : State) : State :=
  (fsmStep d s).getD s

end Sys2Proof.Machine
end

