-- ==== Sys2Proof/Machine/Dispatch.lean ====
section
/-! DEFINITION. What presenting a command to the block does: one arm per row of the opcode table. -/

namespace Sys2Proof.Machine

def exec (i : Instr) (s : State) : Host.Outcome State Fault Refusal :=
  match i with
  | .sysInit => Sys2Proof.Machine.execSysInit s
  | .enterSleep => Sys2Proof.Machine.execEnterSleep s
  | .enterStop => Sys2Proof.Machine.execEnterStop s
  | .exitStop => Sys2Proof.Machine.execExitStop s
  | .clkCold => Sys2Proof.Machine.execClkCold s
  | .clkResume => Sys2Proof.Machine.execClkResume s
  | .calibrate => Sys2Proof.Machine.execCalibrate s
  | .csBegin => Sys2Proof.Machine.execCsBegin s
  | .csEnd t => Sys2Proof.Machine.execCsEnd t s

end Sys2Proof.Machine
end

