-- ==== Sys2Proof/Machine/Window.lean ====
section
/-! DEFINITION. Accesses to the register window (20_memory.md): reading a register, presenting a command, the
BUS_ERROR cases. -/

namespace Sys2Proof.Machine

/-- Present a command word to the block (R84): ILLEGAL_CMD for an illegal word, else the command. -/
def presentCommand (w : Word) (s : State) : Host.Outcome State Fault Refusal :=
  match decodeWord w with
  | .ok i => exec i s
  | .error _ => .next (raiseFault .illegalCmd s)

/-- Whether a read returns a free value: WAKE_LATENCY while it holds no value (R42, R62). -/
def readDraws (s : State) (r : Reg) : Bool :=
  r == .wakeLatency && s.wakeLatency.isNone

/-- `MemRead(addr, size)` (R61, R62): the register's word, or BUS_ERROR and 0. No field of the block changes
but FAULT and EVT on a BUS_ERROR; a free value moves the draw counter on. -/
def memRead (addr : Word) (size : Nat) (s : State) : State :=
  match admittedReg s.params addr size with
  | some r => { s with readData := some (regWord s r), tick := if readDraws s r then s.tick + 1 else s.tick }
  | none => { raiseFault .busError s with readData := some 0#32 }

/-- `MemWrite(addr, size, w)` (R61, R63): an admitted write of CMD presents the command; every other write is
a BUS_ERROR. The admission check comes before any decode (R232). -/
def memWrite (addr : Word) (size : Nat) (w : Word) (s : State) : Host.Outcome State Fault Refusal :=
  match admittedReg s.params addr size with
  | some .cmd => presentCommand w s
  | _ => .next (raiseFault .busError s)

/-- One access by the main or a handler context (R60). -/
def runAccess (a : Access) (s : State) : Host.Outcome State Fault Refusal :=
  match a with
  | .read addr size => .next (memRead addr size s)
  | .write addr size w => memWrite addr size w s

/-- Several accesses of one atomic step, in order, each in the state the one before left (DESIGN CHOICE, log
entry 25: R11 lets the writes of a step take effect at its end and does not say what an access later in the
same step sees). -/
def runAccesses : List Access → State → Host.Outcome State Fault Refusal
  | [], s => .next s
  | a :: rest, s =>
    match runAccess a s with
    | .next t => runAccesses rest t
    | .fault f => .fault f
    | .refused r => .refused r

end Sys2Proof.Machine
end

