-- ==== Sys2Proof/Machine/Interrupts.lean ====
section
/-! DEFINITION. Interrupt handlers (60_exceptions.md section 2): when a handler step is enabled, what it does,
and which accesses its body may hold. A handler step ends in the step it begins (R242). -/

namespace Sys2Proof.Machine

/-- R236: `S.IE = 1 ∧ S.POWER_MODE = 0 (Run) ∧ S.PENDING[s] = 1 ∧ S.ENABLE[s] = 1`. -/
def handlerEnabled (s : State) (src : Source) : Bool :=
  s.ie && decide (s.powerMode = .run) && s.pending.get src && enabled s src

/-- Which accesses a handler makes: an admitted read changes no field (R62), an admitted write of CMD presents a
command; an access that is not admitted would raise BUS_ERROR, and "Otherwise the handler leaves the block's
state alone" (R238, D52). -/
def accessAllowed (p : Params) : Access → Bool
  | .read addr size => (admittedReg p addr size).isSome
  | .write addr size _ => decide (admittedReg p addr size = some .cmd)

/-- The words a body writes. -/
def commandWrites : List Access → List Word
  | [] => []
  | .read _ _ :: rest => commandWrites rest
  | .write _ _ w :: rest => w :: commandWrites rest

/-- R238: the body writes CMD at most once; a CS_BEGIN in it has its matching CS_END in it, which restores
the IE = 1 the handler was entered with (R242), so at most one other write stands between the two
(log entry 9). -/
def commandWritesAllowed : List Word → Bool
  | [] => true
  | [w] => !decodesTo w .csBegin
  | [b, e] => decodesTo b .csBegin && decodesTo e (.csEnd 1#1)
  | [b, w, e] => decodesTo b .csBegin && !decodesTo w .csBegin && decodesTo e (.csEnd 1#1)
  | _ => false

/-- Which bodies a source's handler may have: every access is one a handler makes; the CAL_TIMER handler has the
effects of R237 and no more (R72), so it writes no command; the others may write CMD (R238). -/
def bodyAllowed (p : Params) (src : Source) (body : List Access) : Bool :=
  body.all (accessAllowed p) &&
    match src with
    | .calTimer => (commandWrites body).isEmpty
    | .extiWake => commandWritesAllowed (commandWrites body)
    | .rtcAlarm => commandWritesAllowed (commandWrites body)
    | .sysTick => commandWritesAllowed (commandWrites body)
    | .periph => commandWritesAllowed (commandWrites body)

/-- `log(Handler(s))`, then R237 for CAL_TIMER, R238 for every other source. -/
def handlerEntry (src : Source) (s : State) : State :=
  match src with
  | .calTimer =>
    { s with cal := { s.cal with calDone := true, timerArmed := false }, pending := s.pending.set .calTimer false, enable := { s.enable with calTimer := false }, evt := s.evt ++ [.handler .calTimer] }
  | .extiWake => { s with pending := s.pending.set .extiWake false, evt := s.evt ++ [.handler .extiWake] }
  | .rtcAlarm => { s with pending := s.pending.set .rtcAlarm false, evt := s.evt ++ [.handler .rtcAlarm] }
  | .sysTick => { s with pending := s.pending.set .sysTick false, evt := s.evt ++ [.handler .sysTick] }
  | .periph => { s with pending := s.pending.set .periph false, evt := s.evt ++ [.handler .periph] }

/-- A handler step (R236); while it is not enabled there is no such step and nothing changes
(log entry 3). DESIGN CHOICE (log entry 25): within the one atomic step the entry's effects come first and the
accesses follow in order, each in the state the earlier ones left, so that a read sees PENDING[s] cleared and a
CS_END finds its CS_BEGIN. -/
def handlerStep (src : Source) (body : List Access) (s : State) : Host.Outcome State Fault Refusal :=
  if handlerEnabled s src && bodyAllowed s.params src body then runAccesses body (handlerEntry src s)
  else .next s

end Sys2Proof.Machine
end

