-- ==== Sys2Proof/Machine/Agents.lean ====
section
/-! DEFINITION. One step of one agent (R8, R68), and which agent moves next. -/

namespace Sys2Proof.Machine

/-- One agent's step: one atomic transition on the whole state (R68). -/
def runAction (a : Action) (s : State) : Host.Outcome State Fault Refusal :=
  match a with
  | .main acc => runAccess acc s
  | .fsm d => .next (fsmTurn d s)
  | .handler src body => handlerStep src body s
  | .env e => .next (envStep e s)
  | .reset d => .next (resetWith d s)

/-- The agenda's next action is taken; while the agenda lists none, no agent outside the block acts and the
FSM moves on its own with free draws (log entry 2). -/
def nextStep (s : State) : Host.Outcome State Fault Refusal :=
  match s.agenda with
  | a :: rest => runAction a { s with agenda := rest }
  | [] => .next (fsmTurn (Config.freeDraws s.tick) { s with tick := s.tick + 1 })

/-- The main context's write of a command word to CMD (R63). -/
def cmdWrite (p : Params) (w : Word) : Action :=
  .main (.write p.blockBase 4 w)

/-- A command word placed as the very next step: the block fetches nothing (R73); a command arrives only as a
write to CMD (D31), so the write heads the agenda (log entry 8). -/
def placeCommand (w : Word) (s : State) : State :=
  { s with agenda := cmdWrite s.params w :: s.agenda }

end Sys2Proof.Machine
end

