-- ==== Sys2Proof/Safety.lean ====
section
/-! DEFINITION. What claims are stated in terms of: unfaulted runs, the invariants of the block, the ordering
of its event history, the schedules under which the spec's examples run, and the hardware-health hypothesis
of R176. -/

namespace Sys2Proof.Machine

/-! ### Unfaulted states -/

/-- "A run whose FAULT ≠ 0 is a faulted run" (R230). -/
def faultFree (s : State) : Bool := decide (s.fault = FaultBits.zero)

/-- The machine's next step is a full reset (R270). -/
def resets (s : State) : Bool :=
  match s.agenda with
  | .reset _ :: _ => true
  | _ => false

/-- The step from `s` to `t` is the Stop wake: ES_HALT is left for XS_CS_BEGIN, which nothing but the wake does
(R129). -/
abbrev leavesStop (s t : State) : Prop := s.seqPhase = .esHalt ∧ t.seqPhase = .xsCsBegin

/-! ### The sequencer -/

/-- The phases of two steps, ISSUED telling them apart (R30, R129, R131). -/
def twoStep (p : Phase) : Bool :=
  [Phase.ccVos, .ccOsc, .ccPll, .ccSysclk, .ccRtcclk, .crVos, .crHse, .crPll, .crSw, .esHalt, .slHalt].contains p

/-- The values CUR_CMD may have in a phase (R29: it "distinguishes the caller of the shared phases"). -/
def callers : Phase → List (Option SeqOp)
  | .idle => [none]
  | .siEntry => [some .sysInit]
  | .ccVos => [some .sysInit, some .clkCold]
  | .ccOsc => [some .sysInit, some .clkCold]
  | .ccPll => [some .sysInit, some .clkCold]
  | .ccSysclk => [some .sysInit, some .clkCold]
  | .ccRtcclk => [some .sysInit, some .clkCold]
  | .ccSystick => [some .sysInit, some .clkCold]
  | .crVos => [some .sysInit, some .exitStop, some .clkResume]
  | .crHse => [some .sysInit, some .exitStop, some .clkResume]
  | .crPll => [some .sysInit, some .exitStop, some .clkResume]
  | .crSw => [some .sysInit, some .exitStop, some .clkResume]
  | .siConsole => [some .sysInit]
  | .siRtc => [some .sysInit]
  | .siLeds => [some .sysInit]
  | .siPins => [some .sysInit]
  | .siLppolicy => [some .sysInit]
  | .siAdc => [some .sysInit, some .exitStop]
  | .siRadio => [some .sysInit, some .exitStop]
  | .siFirstboot => [some .sysInit]
  | .calCheck => [some .sysInit, some .calibrate]
  | .calArm => [some .sysInit, some .calibrate]
  | .calWait => [some .sysInit, some .calibrate]
  | .calRecord => [some .sysInit, some .calibrate]
  | .siWdg => [some .sysInit, some .exitStop]
  | .esCsBegin => [some .enterStop]
  | .esRadioDeinit => [some .enterStop]
  | .esAdcDeinit => [some .enterStop]
  | .esPins => [some .enterStop]
  | .esCsEnd => [some .enterStop]
  | .esBorOff => [some .enterStop]
  | .esClrWuf => [some .enterStop]
  | .esUlpFwu => [some .enterStop]
  | .esHalt => [some .enterStop]
  | .xsCsBegin => [some .exitStop]
  | .xsCsEnd => [some .exitStop]
  | .slHalt => [some .enterSleep]
  | .fatal => [some .sysInit, some .clkCold]

/-- The FSM's own invariant: CUR_CMD names a caller of the phase, ISSUED is set only in a two-step phase, the
CPU is halted exactly in the second step of a halt phase (R34), and a Stop sequence runs only once the block
is Initialized (R84). -/
structure SequencerInv (s : State) : Prop where
  caller : s.curCmd ∈ callers s.seqPhase
  issued_only_when_polling : s.issued = true → twoStep s.seqPhase = true
  stop_mode : s.powerMode = .stop ↔ (s.seqPhase = .esHalt ∧ s.issued = true)
  sleep_mode : s.powerMode = .sleepLight ↔ (s.seqPhase = .slHalt ∧ s.issued = true)
  stop_needs_initialized : (s.curCmd = some .enterStop ∨ s.curCmd = some .exitStop) → s.lifecycle = .initialized

/-! ### The clock tree -/

/-- The clock-tree invariant: flags depend on enables as R139 and R175 say, and each phase that enables the
PLL or switches the clock is entered with the flag it depends on set (R159, R165, R290). -/
structure ClockInv (s : State) : Prop where
  hse : s.clk.hseRdy = true → s.clk.hseOn = true
  lse : s.clk.lseRdy = true → s.clk.lseOn = true
  lock : s.clk.pllLock = true → s.clk.pllOn = true ∧ s.clk.hseRdy = true
  sw_pll : s.clk.sw = .pll → s.clk.pllOn = true
  sws_pll : s.clk.sws = .pll → s.clk.pllLock = true
  pll_after_osc : (s.seqPhase = .ccPll ∨ s.seqPhase = .crPll) → s.clk.hseRdy = true
  pll_issued : (s.seqPhase = .ccPll ∨ s.seqPhase = .crPll) → s.issued = true → s.clk.pllSrcHse = true
  switch_after_lock :
    (s.seqPhase = .ccSysclk ∨ s.seqPhase = .crSw) → s.clk.pllLock = true ∧ s.clk.pllSrcHse = true
  switch_issued : (s.seqPhase = .ccSysclk ∨ s.seqPhase = .crSw) → s.issued = true → s.clk.sw = .pll
  running_after_switch : (s.seqPhase = .ccRtcclk ∨ s.seqPhase = .ccSystick) → clockState s = .running

/-- The fields of the cold sequence that a Stop keeps (R47, R139): what an Initialized block relies on. -/
def coldRetained (c : ClkCtrl) : Bool :=
  c.vosFull && c.lseOn && c.pllSrcHse && c.busdivSet && c.rtcselLse && c.systickOn

/-- Everything the cold sequence writes and leaves set (R151 to R157): what a Stop keeps, and HSE_ON, PLL_ON and
SW = PLL, which a Stop wake draws anew (R139). -/
def coldDone (c : ClkCtrl) : Bool :=
  coldRetained c && c.hseOn && c.pllOn && decide (c.sw = .pll)

/-- What the cold sequence has written in a phase: what the earlier phases wrote, and, once the phase has
issued, its own writes (R151 to R157). -/
def coldWritten (c : ClkCtrl) (issued : Bool) : Phase → Bool
  | .ccVos => !issued || c.vosFull
  | .ccOsc => c.vosFull && (!issued || (c.hseOn && c.lseOn))
  | .ccPll => c.vosFull && c.hseOn && c.lseOn && (!issued || (c.pllSrcHse && c.pllOn))
  | .ccSysclk =>
    c.vosFull && c.hseOn && c.lseOn && c.pllSrcHse && c.pllOn && (!issued || (decide (c.sw = .pll) && c.busdivSet))
  | .ccRtcclk =>
    c.vosFull && c.hseOn && c.lseOn && c.pllSrcHse && c.pllOn && decide (c.sw = .pll) && c.busdivSet &&
      (!issued || c.rtcselLse)
  | .ccSystick =>
    c.vosFull && c.hseOn && c.lseOn && c.pllSrcHse && c.pllOn && decide (c.sw = .pll) && c.busdivSet && c.rtcselLse
  | .siConsole => coldDone c
  | .siRtc => coldDone c
  | .siLeds => coldDone c
  | .siPins => coldDone c
  | .siLppolicy => coldDone c
  | .siFirstboot => coldDone c
  | _ => true

/-- Each phase of the cold boot has every write of the phases before it; LIFECYCLE = 1 only after the whole cold
sequence, and then the fields a Stop keeps stay set (R47, R101). -/
structure ColdInv (s : State) : Prop where
  written : coldWritten s.clk s.issued s.seqPhase = true
  cold_branch : (s.seqPhase = .siAdc ∨ s.seqPhase = .siRadio) → s.curCmd = some .sysInit → s.coldPath = true → coldDone s.clk = true
  resume_branch : s.seqPhase ∈ [Phase.crVos, .crHse, .crPll, .crSw] → s.curCmd = some .sysInit → s.coldPath = false
  initialized : s.lifecycle = .initialized → coldRetained s.clk = true

/-! ### Calibration, the critical section, Stop's teardown, the console -/

/-- The calibrator's invariant (R35, R190 to R196, R235, R237, D38). -/
structure CalInv (s : State) : Prop where
  calibrating : s.calState = .calibrating ↔ (s.seqPhase = .calWait ∨ s.seqPhase = .calRecord)
  arm_uncalibrated : s.seqPhase = .calArm → s.calState = .uncalibrated
  waiting : s.seqPhase = .calWait → s.cal.timerArmed = !s.cal.calDone
  recording : s.seqPhase = .calRecord → s.cal.calDone = true
  armed_waits : s.cal.timerArmed = true → s.seqPhase = .calWait
  enable_is_armed : s.enable.calTimer = s.cal.timerArmed
  pending_is_armed : s.pending.calTimer = true → s.cal.timerArmed = true
  recorded : s.wakeLatency.isSome = true ↔ s.calState = .calibrated

/-- Interrupts are masked while a critical section is open (R36, R210, R211). -/
def CriticalInv (s : State) : Prop := s.csActive = true → s.ie = false

/-- Stop's teardown is complete before the halt (R69, R122 to R129, R289). -/
structure TeardownInv (s : State) : Prop where
  radio : s.seqPhase ∈ [Phase.esAdcDeinit, .esPins, .esCsEnd, .esBorOff, .esClrWuf, .esUlpFwu, .esHalt] → s.periph.radioBusInit = false
  adc : s.seqPhase ∈ [Phase.esPins, .esCsEnd, .esBorOff, .esClrWuf, .esUlpFwu, .esHalt] → s.periph.adcInit = false
  pins : s.seqPhase ∈ [Phase.esCsEnd, .esBorOff, .esClrWuf, .esUlpFwu, .esHalt] → s.periph.stopPinsLp = true
  bor : s.seqPhase ∈ [Phase.esClrWuf, .esUlpFwu, .esHalt] → s.pwr.borEn = false
  low_power : s.seqPhase = .esHalt → s.pwr.ulp = true ∧ s.pwr.fwu = true
  regulator : s.powerMode = .stop → s.pwr.regLp = true

/-- A console buffer is well formed (R43): canonical contents of units that fit, at indices of the buffer. -/
structure RingInv (p : Params) (r : Ring) : Prop where
  canonical : r.contents.wf = true
  head : ∀ i ∈ r.head, i < p.consoleCap
  tail : ∀ i ∈ r.tail, i < p.consoleCap
  cells : ∀ c ∈ r.contents, c.1 < p.consoleCap ∧ c.2 < 2 ^ p.consoleUnitBits

/-- Both console buffers, and that they hold indices once CONSOLE_INIT is set (R43, R103). -/
structure ConsoleInv (s : State) : Prop where
  capacity : 0 < s.params.consoleCap
  tx : RingInv s.params s.txbuf
  rx : RingInv s.params s.rxbuf
  inited : s.periph.consoleInit = true → s.txbuf.head.isSome ∧ s.txbuf.tail.isSome ∧ s.rxbuf.head.isSome ∧ s.rxbuf.tail.isSome

/-! ### The ordering of the event history (R159, R165) -/

/-- What a reader of EVT knows at a point of it: whether the PLL's source oscillator has been observed ready,
whether the PLL has been observed locked, and whether every PLL enable and every switch to the PLL so far was
preceded by the observation it depends on. -/
structure OrderView where
  hseSeen : Bool
  lockSeen : Bool
  ok : Bool
  deriving DecidableEq, Repr

/-- Read one more event. A write of HSE_ON undoes the oscillator's observation ("with no write of HSE_ON in
between", R159), a PLL enable undoes the lock's, and a new command, a Stop wake or a reset undoes both. -/
def orderNext (o : OrderView) : LogEvent → OrderView
  | .observed .hseLseRdy => { o with hseSeen := true }
  | .observed .hseRdy => { o with hseSeen := true }
  | .observed .pllLock => { o with lockSeen := true }
  | .clkWrite .hseOn _ => { o with hseSeen := false }
  | .clkWrite .pllOn _ => { o with ok := o.ok && o.hseSeen, lockSeen := false }
  | .clkWrite .sw _ => { o with ok := o.ok && o.lockSeen }
  | .cmd _ => { o with hseSeen := false, lockSeen := false }
  | .wake .stop _ => { o with hseSeen := false, lockSeen := false }
  | .reset => { o with hseSeen := false, lockSeen := false }
  | _ => o

/-- The view after a whole history. -/
def orderView (evt : List LogEvent) : OrderView := evt.foldl orderNext ⟨false, false, true⟩

/-- R159 and R165 hold of EVT, and the phases about to enable the PLL or to switch to it have the observation
they depend on. -/
structure OrderInv (s : State) : Prop where
  ordered : (orderView s.evt).ok = true
  before_pll : (s.seqPhase = .ccPll ∨ s.seqPhase = .crPll) → s.issued = false → (orderView s.evt).hseSeen = true
  before_switch : (s.seqPhase = .ccSysclk ∨ s.seqPhase = .crSw) → s.issued = false → (orderView s.evt).lockSeen = true

/-- `n` steps of the machine, stopping at a fault or a refusal. -/
def runSteps : Nat → State → Host.Outcome State Fault Refusal
  | 0, s => .next s
  | n + 1, s =>
    match step s with
    | .next t => runSteps n t
    | .fault f => .fault f
    | .refused r => .refused r

/-! ### The healthy schedule (95_test_vectors.md section 0) -/

/-- The draws of a step whose status, if it draws one, is OK. -/
def okDraws (d : Draws) : Draws := { d with status := some .ok }

/-- The resume phases CR_VOS to CR_SW: after each issue step the environment makes the change the phase waits
for. -/
def resumeSchedule (d : Draws) : List Action :=
  [.fsm d, .env .raiseVosRdy, .fsm d, .fsm d, .env .raiseHseRdy, .fsm d, .fsm d, .env .raisePllLock, .fsm d,
   .fsm d, .env .updateSws, .fsm d]

/-- The cold phases CC_VOS to CC_SYSTICK, every status OK. -/
def coldSchedule (d : Draws) : List Action :=
  [.fsm d, .env .raiseVosRdy, .fsm (okDraws d), .fsm d, .env .raiseHseRdy, .env .raiseLseRdy, .fsm (okDraws d),
   .fsm d, .env .raisePllLock, .fsm (okDraws d), .fsm d, .env .updateSws, .fsm (okDraws d), .fsm d,
   .fsm (okDraws d), .fsm d]

/-- CAL_CHECK to CAL_RECORD: the armed timer completes at the next step and its handler runs right after. -/
def calSchedule (d : Draws) : List Action :=
  [.fsm d, .fsm d, .env (.setPending .calTimer), .handler .calTimer [], .fsm d, .fsm d]

/-- The block is at rest: no command runs (R29, R46). -/
def atRest (s : State) : Prop := s.seqPhase = .idle ∧ s.curCmd = none ∧ s.issued = false

/-- The clock fields the resume sequence leaves (R161 to R164). -/
def resumed (c : ClkCtrl) : ClkCtrl :=
  { c with vosFull := true, vosRdy := true, hseOn := true, hseRdy := true, pllOn := true, pllLock := true, pllSrcHse := true, sw := .pll, sws := .pll }

/-- The clock fields the cold sequence leaves (R151 to R157). -/
def coldStarted (c : ClkCtrl) : ClkCtrl :=
  { resumed c with lseOn := true, lseRdy := true, busdivSet := true, rtcselLse := true, systickOn := true }

/-- The events of the resume sequence (95_test_vectors.md, V-SI-3). -/
def resumeEvents : List LogEvent :=
  [.clkWrite .vosFull 1, .observed .vosRdy, .clkWrite .hseOn 1, .observed .hseRdy, .clkWrite .pllSrcHse 1,
   .clkWrite .pllOn 1, .observed .pllLock, .clkWrite .sw 3, .observed .swsPll]

/-- The events of the cold sequence (95_test_vectors.md, V-SI-1). -/
def coldEvents : List LogEvent :=
  [.clkWrite .vosFull 1, .observed .vosRdy, .status 1 .ok, .clkWrite .hseOn 1, .clkWrite .lseOn 1,
   .observed .hseLseRdy, .status 2 .ok, .clkWrite .pllSrcHse 1, .clkWrite .pllOn 1, .observed .pllLock,
   .status 3 .ok, .clkWrite .sw 3, .clkWrite .busdivSet 1, .observed .swsPll, .status 4 .ok,
   .clkWrite .rtcselLse 1, .status 5 .ok, .clkWrite .systickOn 1]

/-! ### Runs and hardware health (R176) -/

/-- An infinite run: which agent's step is taken at each point, and the states between. -/
def IsRun (act : Nat → Action) (st : Nat → State) : Prop :=
  ∀ n, runAction (act n) (st n) = .next (st (n + 1))

/-- Whether R175 permits a readiness change in a state. -/
def readinessPermitted (s : State) : EnvAction → Bool
  | .raiseVosRdy => vosMayRise s.clk
  | .raiseHseRdy => hseMayRise s.clk
  | .raiseLseRdy => lseMayRise s.clk
  | .raisePllLock => lockMayRise s.clk
  | .updateSws => swsMayFollow s.clk && s.clk.sws != s.clk.sw
  | _ => false

/-- A cold step is issued and its condition holds (R152). -/
def coldStepReady (s : State) : Bool :=
  s.issued && match s.seqPhase with
    | .ccVos => s.clk.vosRdy
    | .ccOsc => s.clk.hseRdy && s.clk.lseRdy
    | .ccPll => s.clk.pllLock
    | .ccSysclk => s.clk.sws == .pll
    | .ccRtcclk => true
    | _ => false

/-- `HW_HEALTHY` (R176): a readiness change that stays permitted is eventually made, and a cold step that
stays issued with its condition true eventually gets `st = OK`. -/
structure HwHealthy (act : Nat → Action) (st : Nat → State) : Prop where
  readiness : ∀ (e : EnvAction) (m : Nat), (∀ n, m ≤ n → readinessPermitted (st n) e = true) → ∃ n, m ≤ n ∧ act n = .env e
  status : ∀ m : Nat, (∀ n, m ≤ n → coldStepReady (st n) = true) → ∃ n d, m ≤ n ∧ act n = .fsm d ∧ d.status = some .ok

/-- The calibration timer's weak fairness (R235, D24). -/
def TimerFair (act : Nat → Action) (st : Nat → State) : Prop :=
  ∀ m : Nat, (∀ n, m ≤ n → mayPend (st n) .calTimer = true) → ∃ n, m ≤ n ∧ act n = .env (.setPending .calTimer)

/-- The FSM keeps being scheduled. -/
def FsmFair (act : Nat → Action) : Prop :=
  ∀ m : Nat, ∃ n d, m ≤ n ∧ act n = .fsm d

end Sys2Proof.Machine
end

