-- ==== Sys2Proof/Certificates/Slice0/Obligations.lean ====
section
/-! DEFINITION. The statements about the model, for the provers. Each docstring names the spec's rule it
formalises; OBLIGATIONS.json lists them with their bases and quotes. -/

open Sys2Proof Sys2Proof.Machine

/-! ### Encoding (30_encoding.md) -/

/-- Decoding the encoded command gives it back, as a word and as the bytes of memory, with CS_END's token at
both its values (R80, R81, R82). -/
def Obligations.DecodeOfEncode : Prop :=
  ∀ (i : Instr) (rest : List Byte),
    decodeWord (encodeWord i) = .ok i ∧ decode (bytesOfWord (encodeWord i) ++ rest) = .ok (i, rest) ∧
      encode i = [encodeWord i]

/-- R81: each row's match and mask decide which words are the command, `t` being free only for CS_END; and a
word that decodes is the word its command encodes to, so that no two words mean one command. -/
def Obligations.OpcodeMap : Prop :=
  ∀ w : Word,
    (decodeWord w = .ok .sysInit ↔ w &&& 0xFFFFFFFF#32 = 0x00000001#32) ∧
    (decodeWord w = .ok .enterSleep ↔ w &&& 0xFFFFFFFF#32 = 0x00000002#32) ∧
    (decodeWord w = .ok .enterStop ↔ w &&& 0xFFFFFFFF#32 = 0x00000003#32) ∧
    (decodeWord w = .ok .exitStop ↔ w &&& 0xFFFFFFFF#32 = 0x00000004#32) ∧
    (decodeWord w = .ok .clkCold ↔ w &&& 0xFFFFFFFF#32 = 0x00000010#32) ∧
    (decodeWord w = .ok .clkResume ↔ w &&& 0xFFFFFFFF#32 = 0x00000011#32) ∧
    (decodeWord w = .ok .calibrate ↔ w &&& 0xFFFFFFFF#32 = 0x00000020#32) ∧
    (decodeWord w = .ok .csBegin ↔ w &&& 0xFFFFFFFF#32 = 0x00000030#32) ∧
    (∀ t : BitVec 1, decodeWord w = .ok (.csEnd t) ↔
      w &&& 0xFFFFFEFF#32 = 0x00000031#32 ∧ w.extractLsb' 8 1 = t) ∧
    (∀ i : Instr, decodeWord w = .ok i ↔ w = encodeWord i)

/-- Words written out from R81 decode to their commands, and the illegal words of 95_test_vectors.md 2.1 to
none. -/
def Obligations.TableWordsDecode : Prop :=
  decodeTableWord 32 0x00000001 = some .sysInit ∧ decodeTableWord 32 0x00000002 = some .enterSleep ∧
  decodeTableWord 32 0x00000003 = some .enterStop ∧ decodeTableWord 32 0x00000004 = some .exitStop ∧
  decodeTableWord 32 0x00000010 = some .clkCold ∧ decodeTableWord 32 0x00000011 = some .clkResume ∧
  decodeTableWord 32 0x00000020 = some .calibrate ∧ decodeTableWord 32 0x00000030 = some .csBegin ∧
  decodeTableWord 32 0x00000031 = some (.csEnd 0#1) ∧ decodeTableWord 32 0x00000131 = some (.csEnd 1#1) ∧
  decodeTableWord 32 0x00000000 = none ∧ decodeTableWord 32 0x00000101 = none ∧
  decodeTableWord 32 0x80000003 = none ∧ decodeTableWord 32 0x00000012 = none ∧
  decodeTableWord 32 0x000000FF = none ∧ decodeTableWord 32 0x00000130 = none

/-- R83: an unassigned opcode, a nonzero bit in [31:9], or bit 8 set for an opcode other than CS_END, raises
ILLEGAL_CMD in every state, whatever the phase, and does nothing else. -/
def Obligations.IllegalWordRaisesIllegalCmd : Prop :=
  ∀ (s : State) (w : Word),
    (w.extractLsb' 0 8 ∉ [0x01#8, 0x02#8, 0x03#8, 0x04#8, 0x10#8, 0x11#8, 0x20#8, 0x30#8, 0x31#8] ∨
      w.extractLsb' 9 23 ≠ 0#23 ∨ (w.extractLsb' 8 1 = 1#1 ∧ w.extractLsb' 0 8 ≠ 0x31#8)) →
    presentCommand w s =
      .next { s with fault := { s.fault with illegalCmd := true }, evt := s.evt ++ [.fault .illegalCmd] }

/-! ### The step -/

/-- A step runs the decoded command: a word at the head of the agenda, written to CMD and decoding to a
well-formed command, is `exec` of that command in the state whose agenda has moved on; a word placed for
fetching is run by the very next step. A read by the main context is `memRead`, its write of any word, size and
address is `memWrite`, and a change by the environment is `envStep` (R8, R60, R62, R63, R68). An FSM turn is the
phase's rule, or nothing while it has no step; with an empty agenda the step is the FSM's turn with free
draws. -/
def Obligations.StepRunsTheDecodedCommand : Prop :=
  (∀ (s : State) (rest : List Action) (w : Word) (i : Instr),
    s.agenda = .main (.write s.params.blockBase 4 w) :: rest → decodeWord w = .ok i → i.wellFormed = true →
    step s = exec i { s with agenda := rest }) ∧
  (∀ (s : State) (nbits w : Nat) (i : Instr),
    decodeTableWord nbits w = some i → step (s.withFetchWord nbits w) = exec i s) ∧
  (∀ (s : State) (rest : List Action) (addr : Word) (size : Nat), s.agenda = .main (.read addr size) :: rest →
    step s = .next (memRead addr size { s with agenda := rest })) ∧
  (∀ (s : State) (rest : List Action) (addr : Word) (size : Nat) (w : Word),
    s.agenda = .main (.write addr size w) :: rest → step s = memWrite addr size w { s with agenda := rest }) ∧
  (∀ (s : State) (rest : List Action) (e : EnvAction), s.agenda = .env e :: rest →
    step s = .next (envStep e { s with agenda := rest })) ∧
  (∀ (s : State) (rest : List Action) (d : Draws), s.agenda = .fsm d :: rest →
    step s = .next ((fsmStep d { s with agenda := rest }).getD { s with agenda := rest })) ∧
  (∀ s : State, s.agenda = [] →
    step s = .next ((fsmStep (Config.freeDraws s.tick) { s with tick := s.tick + 1 }).getD
      { s with tick := s.tick + 1 }))

/-- R13, R230, R234: no command and no step ever stops the machine; a fault is a bit, FATAL a phase, a hang an
infinite run. That a step which is not enabled changes nothing is the model's choice (log entries 3, 12). -/
def Obligations.EveryStepAnswers : Prop :=
  (∀ (i : Instr) (s : State), ∃ t, exec i s = .next t) ∧ ∀ s : State, ∃ t, step s = .next t

/-! ### Command acceptance (R84, R100) -/

/-- R100: in IDLE the FSM has no step; each sequence command, written in IDLE (and for ENTER_STOP and EXIT_STOP
with LIFECYCLE = 1), sets CUR_CMD, clears ISSUED, logs `Cmd` and enters its first phase, and changes nothing
else; while BUSY it raises CMD_BUSY and nothing else; ENTER_STOP and EXIT_STOP with LIFECYCLE = 0 raise
STATE_ERROR and nothing else. Acceptance is the one step of the context that writes the word to CMD. -/
def Obligations.CommandAcceptance : Prop :=
  ∀ s : State,
    (∀ d, s.seqPhase = .idle → fsmStep d s = none) ∧
    (s.seqPhase = .idle →
      exec .sysInit s = .next { s with curCmd := some .sysInit, issued := false, evt := s.evt ++ [.cmd .sysInit], seqPhase := .siEntry } ∧
      exec .enterSleep s = .next { s with curCmd := some .enterSleep, issued := false, evt := s.evt ++ [.cmd .enterSleep], seqPhase := .slHalt } ∧
      exec .clkCold s = .next { s with curCmd := some .clkCold, issued := false, evt := s.evt ++ [.cmd .clkCold], seqPhase := .ccVos } ∧
      exec .clkResume s = .next { s with curCmd := some .clkResume, issued := false, evt := s.evt ++ [.cmd .clkResume], seqPhase := .crVos } ∧
      exec .calibrate s = .next { s with curCmd := some .calibrate, issued := false, evt := s.evt ++ [.cmd .calibrate], seqPhase := .calCheck }) ∧
    (s.seqPhase = .idle → s.lifecycle = .initialized →
      exec .enterStop s = .next { s with curCmd := some .enterStop, issued := false, evt := s.evt ++ [.cmd .enterStop], seqPhase := .esCsBegin } ∧
      exec .exitStop s = .next { s with curCmd := some .exitStop, issued := false, evt := s.evt ++ [.cmd .exitStop], seqPhase := .xsCsBegin }) ∧
    (s.seqPhase = .idle → s.lifecycle = .uninitialized → ∀ i ∈ [Instr.enterStop, .exitStop],
      exec i s = .next { s with fault := { s.fault with stateError := true }, evt := s.evt ++ [.fault .stateError] }) ∧
    (s.seqPhase ≠ .idle →
      ∀ i ∈ [Instr.sysInit, .enterSleep, .enterStop, .exitStop, .clkCold, .clkResume, .calibrate],
        exec i s = .next { s with fault := { s.fault with cmdBusy := true }, evt := s.evt ++ [.fault .cmdBusy] }) ∧
    (∀ (w : Word) (i : Instr), decodeWord w = .ok i → runAccess (.write s.params.blockBase 4 w) s = exec i s)

/-- R84, R230, R232: a write raises at most one fault, and one that raises a fault changes nothing but FAULT
and EVT. -/
def Obligations.OneFaultPerWrite : Prop :=
  ∀ (s t : State) (addr : Word) (size : Nat) (w : Word), memWrite addr size w s = .next t →
    (∃ c, t = { s with fault := s.fault.set c, evt := s.evt ++ [.fault c] }) ∨
    (t.fault = s.fault ∧ ∃ e, t.evt = s.evt ++ [e] ∧ ∀ c, e ≠ .fault c)

/-! ### The Critical Section unit (43_critical_section.md) -/

/-- R210: CS_BEGIN saves IE in the token (which STATUS then shows), clears IE, opens the section, in every phase and whether or not BUSY;
in an open section it raises CS_NEST and nothing else; its word is 0x30, and any other word with that opcode is
ILLEGAL_CMD. -/
def Obligations.CsBeginMasksInterrupts : Prop :=
  (∀ s : State, s.csActive = false →
    exec .csBegin s = .next { s with csToken := s.ie, ie := false, csActive := true, evt := s.evt ++ [.csBegin s.ie] }) ∧
  (∀ s : State, s.csActive = true →
    exec .csBegin s = .next { s with fault := { s.fault with csNest := true }, evt := s.evt ++ [.fault .csNest] }) ∧
  (∀ s : State, s.csActive = false → ∃ t, exec .csBegin s = .next t ∧ (statusWord t).extractLsb' 11 1 = BitVec.ofBool s.ie) ∧
  decodeWord 0x00000030#32 = .ok .csBegin ∧
  (∀ (s : State) (w : Word), w.extractLsb' 0 8 = 0x30#8 → w ≠ 0x00000030#32 →
    presentCommand w s =
      .next { s with fault := { s.fault with illegalCmd := true }, evt := s.evt ++ [.fault .illegalCmd] })

/-- R211: CS_END t in an open section whose token is t restores IE from t and closes the section; with no open
section it raises CS_UNPAIRED, with another token CS_TOKEN_MISMATCH, and nothing else; its words are
0x31 and 0x131. -/
def Obligations.CsEndRestoresInterrupts : Prop :=
  (∀ (s : State) (t : BitVec 1), s.csActive = true → s.csToken = decide (t = 1#1) →
    exec (.csEnd t) s = .next { s with ie := decide (t = 1#1), csActive := false, evt := s.evt ++ [.csEnd (decide (t = 1#1))] }) ∧
  (∀ (s : State) (t : BitVec 1), s.csActive = false →
    exec (.csEnd t) s = .next { s with fault := { s.fault with csUnpaired := true }, evt := s.evt ++ [.fault .csUnpaired] }) ∧
  (∀ (s : State) (t : BitVec 1), s.csActive = true → s.csToken ≠ decide (t = 1#1) →
    exec (.csEnd t) s = .next { s with fault := { s.fault with csTokenMismatch := true }, evt := s.evt ++ [.fault .csTokenMismatch] }) ∧
  decodeWord 0x00000031#32 = .ok (.csEnd 0#1) ∧ decodeWord 0x00000131#32 = .ok (.csEnd 1#1) ∧
  (∀ (s : State) (w : Word), w.extractLsb' 0 8 = 0x31#8 → w ≠ 0x00000031#32 → w ≠ 0x00000131#32 →
    presentCommand w s =
      .next { s with fault := { s.fault with illegalCmd := true }, evt := s.evt ++ [.fault .illegalCmd] })

/-- P5 of 95_test_vectors.md: a Begin and the End with the token STATUS shows leave the interrupt enable as it
was, for both its values; the FSM's own End, with the token it reads, does the same. -/
def Obligations.CsPairRestoresInterruptEnable : Prop :=
  ∀ s : State, s.csActive = false →
    ∃ u t, exec .csBegin s = .next u ∧ u.ie = false ∧
      exec (.csEnd ((statusWord u).extractLsb' 11 1)) u = .next t ∧
      t = { s with csToken := s.ie, evt := s.evt ++ [.csBegin s.ie, .csEnd s.ie] } ∧
      csEnd u.csToken u = t

/-! ### The register window (20_memory.md) -/

/-- R61: an access is admitted iff its size is 4, its offset is 4-aligned and lies in 0..0x24; a read or write
that is not admitted raises BUS_ERROR, reads 0, and has no other effect; an admitted read raises nothing. -/
def Obligations.AccessAdmission : Prop :=
  ∀ (s : State) (addr : Word) (size : Nat),
    let admitted := size = 4 ∧ s.params.blockBase.toNat ≤ addr.toNat ∧
      (addr.toNat - s.params.blockBase.toNat) % 4 = 0 ∧ addr.toNat - s.params.blockBase.toNat ≤ 0x24
    (¬ admitted →
      memRead addr size s = { s with fault := { s.fault with busError := true }, evt := s.evt ++ [.fault .busError], readData := some 0#32 } ∧
      ∀ w, memWrite addr size w s = .next { s with fault := { s.fault with busError := true }, evt := s.evt ++ [.fault .busError] }) ∧
    (admitted → (memRead addr size s).fault = s.fault ∧ (memRead addr size s).evt = s.evt)

/-- R62: an admitted read returns the register's word of the state it is made in, and changes no field of the
block; a read of WAKE_LATENCY that holds no value returns a free value. The register's word is the composition
of that register and of no other (R23 to R26, R37 to R42). -/
def Obligations.ReadReturnsTheRegister : Prop :=
  (∀ s : State,
    regWord s .status = statusWord s ∧ regWord s .fault = faultWord s.fault ∧
    regWord s .clkctrl = clkctrlWord s.clk ∧ regWord s .pwrctrl = pwrctrlWord s.pwr ∧
    regWord s .periph = periphWord s.periph ∧ regWord s .irq = irqWord s ∧ regWord s .cal = calWord s.cal ∧
    regWord s .instr = instrWord s.counters) ∧
  ∀ (s : State) (off : Nat) (r : Reg),
    (off, r) ∈ [(0x00, Reg.cmd), (0x04, .status), (0x08, .fault), (0x0C, .clkctrl), (0x10, .pwrctrl),
      (0x14, .periph), (0x18, .irq), (0x1C, .cal), (0x20, .instr), (0x24, .wakeLatency)] →
    s.params.blockBase.toNat + off < 2 ^ 32 →
    (r ≠ .wakeLatency ∨ s.wakeLatency.isSome = true →
      memRead (s.params.blockBase + BitVec.ofNat 32 off) 4 s = { s with readData := some (regWord s r) }) ∧
    (r = .wakeLatency → s.wakeLatency = none →
      memRead (s.params.blockBase + BitVec.ofNat 32 off) 4 s =
        { s with readData := some (Config.freeWord s.tick), tick := s.tick + 1 }) ∧
    (r = .wakeLatency → ∀ v, s.wakeLatency = some v → regWord s r = v) ∧
    (r = .cmd → regWord s r = 0#32)

/-- R63: an admitted write of CMD presents the word; an admitted write of any other offset raises BUS_ERROR and
changes nothing else. -/
def Obligations.WriteReachesOnlyCmd : Prop :=
  ∀ (s : State) (w : Word),
    memWrite s.params.blockBase 4 w s = presentCommand w s ∧
    ∀ off ∈ [0x04, 0x08, 0x0C, 0x10, 0x14, 0x18, 0x1C, 0x20, 0x24],
      s.params.blockBase.toNat + off < 2 ^ 32 →
      memWrite (s.params.blockBase + BitVec.ofNat 32 off) 4 w s =
        .next { s with fault := { s.fault with busError := true }, evt := s.evt ++ [.fault .busError] }

/-- R24: every field of STATUS at its bits, BUSY, FATAL and CLOCK_STATE computed, the reserved bits 0, with the
codes R28, R32, R33, R34, R35 and R81 give the phases, the three enumerated states, CLOCK_STATE and the running
command's opcode. -/
def Obligations.StatusFields : Prop :=
  (∀ s : State, let w := statusWord s
    w.extractLsb' 0 1 = BitVec.ofBool (decide (s.seqPhase ≠ .idle)) ∧
    w.extractLsb' 1 1 = BitVec.ofBool (decide (s.seqPhase = .fatal)) ∧
    w.extractLsb' 2 1 = s.lifecycle.code ∧ w.extractLsb' 3 2 = s.calState.code ∧
    w.extractLsb' 5 2 = s.powerMode.code ∧ w.extractLsb' 7 2 = (clockState s).code ∧
    w.extractLsb' 9 1 = BitVec.ofBool s.csActive ∧ w.extractLsb' 10 1 = BitVec.ofBool s.ie ∧
    w.extractLsb' 11 1 = BitVec.ofBool s.csToken ∧ w.extractLsb' 12 1 = BitVec.ofBool s.coldPath ∧
    w.extractLsb' 13 1 = 0#1 ∧ w.extractLsb' 14 1 = BitVec.ofBool s.wuf ∧
    w.extractLsb' 15 1 = BitVec.ofBool s.issued ∧ w.extractLsb' 16 6 = s.seqPhase.code ∧
    w.extractLsb' 22 2 = 0#2 ∧ (s.curCmd = none → w.extractLsb' 24 8 = 0x00#8) ∧
    ∀ op ∈ s.curCmd, w.extractLsb' 24 8 = op.code) ∧
  (∀ p n, (p, n) ∈
      [(Phase.idle, 0x00#6), (.siEntry, 0x01#6), (.ccVos, 0x02#6), (.ccOsc, 0x03#6), (.ccPll, 0x04#6),
       (.ccSysclk, 0x05#6), (.ccRtcclk, 0x06#6), (.ccSystick, 0x07#6), (.crVos, 0x08#6), (.crHse, 0x09#6),
       (.crPll, 0x0A#6), (.crSw, 0x0B#6), (.siConsole, 0x0C#6), (.siRtc, 0x0D#6), (.siLeds, 0x0E#6),
       (.siPins, 0x0F#6), (.siLppolicy, 0x10#6), (.siAdc, 0x11#6), (.siRadio, 0x12#6), (.siFirstboot, 0x13#6),
       (.calCheck, 0x14#6), (.calArm, 0x15#6), (.calWait, 0x16#6), (.calRecord, 0x17#6), (.siWdg, 0x18#6),
       (.esCsBegin, 0x1A#6), (.esRadioDeinit, 0x1B#6), (.esAdcDeinit, 0x1C#6), (.esPins, 0x1D#6),
       (.esCsEnd, 0x1E#6), (.esBorOff, 0x1F#6), (.esClrWuf, 0x20#6), (.esUlpFwu, 0x21#6), (.esHalt, 0x22#6),
       (.xsCsBegin, 0x23#6), (.xsCsEnd, 0x24#6), (.slHalt, 0x25#6), (.fatal, 0x3F#6)] → p.code = n) ∧
  (∀ op n, (op, n) ∈
      [(SeqOp.sysInit, 0x01#8), (.enterSleep, 0x02#8), (.enterStop, 0x03#8), (.exitStop, 0x04#8),
       (.clkCold, 0x10#8), (.clkResume, 0x11#8), (.calibrate, 0x20#8)] → op.code = n) ∧
  (∀ l n, (l, n) ∈ [(Lifecycle.uninitialized, 0#1), (.initialized, 1#1)] → l.code = n) ∧
  (∀ c n, (c, n) ∈ [(CalState.uncalibrated, 0#2), (.calibrating, 1#2), (.calibrated, 2#2)] → c.code = n) ∧
  (∀ m n, (m, n) ∈ [(PowerMode.run, 0#2), (.sleepLight, 1#2), (.stop, 2#2)] → m.code = n) ∧
  ∀ c n, (c, n) ∈ [(ClockState.coldDefault, 0#2), (.running, 1#2), (.transitional, 2#2)] → c.code = n

/-- R25, R26, R37 to R41: the fields of FAULT, CLKCTRL, PWRCTRL, PERIPH, IRQ, CAL and INSTR at their bits, the
reserved bits 0; ENABLE[SYSTICK] equals SYSTICK_ON, the other four sources have an enable of their own. -/
def Obligations.RegisterFields : Prop :=
  ∀ s : State,
    (∀ c n, (c, n) ∈ [(FaultCode.illegalCmd, 0), (.cmdBusy, 1), (.csNest, 2), (.csUnpaired, 3), (.csTokenMismatch, 4),
        (.clkCfgFail, 5), (.busError, 6), (.stateError, 7)] → (faultWord s.fault).getLsbD n = s.fault.get c) ∧
    (faultWord s.fault).extractLsb' 8 24 = 0#24 ∧
    (∀ b n, (b, n) ∈ [(s.clk.vosFull, 0), (s.clk.vosRdy, 1), (s.clk.hseOn, 2), (s.clk.hseRdy, 3), (s.clk.lseOn, 4),
        (s.clk.lseRdy, 5), (s.clk.pllOn, 6), (s.clk.pllLock, 7), (s.clk.pllSrcHse, 8), (s.clk.busdivSet, 13),
        (s.clk.rtcselLse, 14), (s.clk.systickOn, 15)] → (clkctrlWord s.clk).getLsbD n = b) ∧
    (clkctrlWord s.clk).extractLsb' 9 2 = (if s.clk.sw = .pll then 3#2 else 0#2) ∧
    (clkctrlWord s.clk).extractLsb' 11 2 = (if s.clk.sws = .pll then 3#2 else 0#2) ∧
    (clkctrlWord s.clk).extractLsb' 16 16 = 0#16 ∧
    (∀ b n, (b, n) ∈ [(s.pwr.borEn, 0), (s.pwr.ulp, 1), (s.pwr.fwu, 2), (s.pwr.regLp, 3), (s.pwr.fullShutdownEn, 4),
        (decide (s.pwr.pwrSrc = .batteryPower), 5)] → (pwrctrlWord s.pwr).getLsbD n = b) ∧
    (pwrctrlWord s.pwr).extractLsb' 6 26 = 0#26 ∧
    (∀ b n, (b, n) ∈ [(s.periph.consoleInit, 0), (s.periph.rtcInit, 1), (s.periph.ledsOff, 2), (s.periph.unusedPinsLp, 3),
        (s.periph.adcInit, 4), (s.periph.radioBusInit, 5), (s.periph.radioDbgInit, 6), (s.periph.wdgInit, 7),
        (s.periph.stopPinsLp, 8)] → (periphWord s.periph).getLsbD n = b) ∧
    (periphWord s.periph).extractLsb' 9 23 = 0#23 ∧
    (∀ src n, (src, n) ∈ [(Source.extiWake, 0), (.rtcAlarm, 1), (.calTimer, 2), (.sysTick, 3), (.periph, 4)] →
      (irqWord s).getLsbD n = s.pending.get src ∧ (irqWord s).getLsbD (8 + n) = enabled s src) ∧
    enabled s .extiWake = s.enable.extiWake ∧ enabled s .rtcAlarm = s.enable.rtcAlarm ∧
    enabled s .calTimer = s.enable.calTimer ∧ enabled s .sysTick = s.clk.systickOn ∧
    enabled s .periph = s.enable.periph ∧
    s.pending.get .extiWake = s.pending.extiWake ∧ s.pending.get .rtcAlarm = s.pending.rtcAlarm ∧
    s.pending.get .calTimer = s.pending.calTimer ∧ s.pending.get .sysTick = s.pending.sysTick ∧
    s.pending.get .periph = s.pending.periph ∧
    (irqWord s).extractLsb' 5 3 = 0#3 ∧ (irqWord s).extractLsb' 13 19 = 0#19 ∧
    (calWord s.cal).getLsbD 0 = s.cal.timerArmed ∧ (calWord s.cal).getLsbD 1 = s.cal.calDone ∧
    (calWord s.cal).extractLsb' 2 30 = 0#30 ∧
    (instrWord s.counters).extractLsb' 0 8 = s.counters.coldSeq ∧
    (instrWord s.counters).extractLsb' 8 8 = s.counters.calArm ∧
    (instrWord s.counters).extractLsb' 16 16 = s.counters.resumeSeq

/-- R64: bit `i` of a register word is bit `i mod 8` of the byte at `off + i div 8`. -/
def Obligations.WindowIsLittleEndian : Prop :=
  ∀ (s : State) (off i : Nat) (r : Reg), regAt off = some r → i < 32 → s.params.blockBase.toNat + off + 3 < 2 ^ 32 →
    ∃ b, windowByte s (s.params.blockBase + BitVec.ofNat 32 (off + i / 8)) = some b ∧
      b.getLsbD (i % 8) = (regWord s r).getLsbD i

/-! ### The clock state (R33), reset (R270, R271) -/

/-- R33: Running, else ColdDefault, else Transitional, as a function of CLKCTRL. -/
def Obligations.ClockStateOfClkctrl : Prop :=
  ∀ s : State,
    (clockState s = .running ↔ s.clk.hseOn = true ∧ s.clk.hseRdy = true ∧ s.clk.pllOn = true ∧ s.clk.pllLock = true ∧
      s.clk.pllSrcHse = true ∧ s.clk.sw = .pll ∧ s.clk.sws = .pll) ∧
    (clockState s = .coldDefault ↔ s.clk.sws = .internal ∧ s.clk.pllOn = false) ∧
    (clockState s = .transitional ↔
      ¬ (s.clk.hseOn = true ∧ s.clk.hseRdy = true ∧ s.clk.pllOn = true ∧ s.clk.pllLock = true ∧
        s.clk.pllSrcHse = true ∧ s.clk.sw = .pll ∧ s.clk.sws = .pll) ∧
      ¬ (s.clk.sws = .internal ∧ s.clk.pllOn = false)) ∧
    ClockState.coldDefault.code = 0#2 ∧ ClockState.running.code = 1#2 ∧ ClockState.transitional.code = 2#2

/-- R271: in any state, whatever it was doing, a reset leaves the values of the table, the drawn ones as drawn
(LSE_RDY only with LSE_ON), CLOCK_STATE = ColdDefault, EVT = [Reset]. -/
def Obligations.ResetLeavesTheTable : Prop :=
  ∀ (s : State) (d : ResetDraws) (rest : List Action), s.agenda = .reset d :: rest →
    ∃ t, step s = .next t ∧
      t.seqPhase = .idle ∧ busy t = false ∧ t.curCmd = none ∧ t.issued = false ∧ t.lifecycle = .uninitialized ∧
      t.calState = .uncalibrated ∧ t.powerMode = .run ∧ t.ie = true ∧ t.csActive = false ∧ t.csToken = d.csToken ∧
      t.coldPath = d.coldPath ∧ t.wuf = d.wuf ∧ faultWord t.fault = 0#32 ∧
      t.clk.vosFull = false ∧ t.clk.hseOn = false ∧ t.clk.hseRdy = false ∧ t.clk.pllOn = false ∧
      t.clk.pllLock = false ∧ t.clk.pllSrcHse = false ∧ t.clk.sw = .internal ∧ t.clk.sws = .internal ∧
      t.clk.busdivSet = false ∧ t.clk.systickOn = false ∧ t.clk.vosRdy = d.vosRdy ∧ t.clk.lseOn = d.lseOn ∧
      t.clk.lseRdy = (d.lseOn && d.lseRdy) ∧ t.clk.rtcselLse = d.rtcselLse ∧
      t.pwr = ⟨true, false, false, false, true, d.pwrSrc⟩ ∧ periphWord t.periph = 0#32 ∧
      (∀ src, t.pending.get src = false) ∧ t.enable = ⟨d.enableExti, d.enableRtc, false, d.enablePeriph⟩ ∧
      enabled t .sysTick = false ∧ calWord t.cal = 0#32 ∧ instrWord t.counters = 0#32 ∧ t.wakeLatency = none ∧
      t.txbuf = Ring.noValue ∧ t.rxbuf = Ring.noValue ∧ t.evt = [.reset] ∧ clockState t = .coldDefault

/-- State.reset is a reset state: it is what a reset whose draws are the "Fixed draws" of 95_test_vectors.md
section 0 leaves (those draws are the model's choice for State.reset, log entry 5), and it reads as S0. -/
def Obligations.ResetStateReadsAsS0 : Prop :=
  State.reset = resetWith ⟨false, false, false, false, false, false, false, true, true, false, .batteryPower⟩ State.reset ∧
  statusWord State.reset = 0x00000400#32 ∧ faultWord State.reset.fault = 0#32 ∧
  clkctrlWord State.reset.clk = 0x00000000#32 ∧ pwrctrlWord State.reset.pwr = 0x00000031#32 ∧
  periphWord State.reset.periph = 0#32 ∧ irqWord State.reset = 0x00000300#32 ∧ calWord State.reset.cal = 0#32 ∧
  instrWord State.reset.counters = 0#32

/-! ### Invariants every step keeps -/

/-- Every invariant below holds of the state right after reset. -/
def Obligations.InvariantsHoldAtReset : Prop :=
  SequencerInv State.reset ∧ ClockInv State.reset ∧ ColdInv State.reset ∧ CalInv State.reset ∧
  CriticalInv State.reset ∧ TeardownInv State.reset ∧ ConsoleInv State.reset ∧ OrderInv State.reset

/-- R27, R29, R30, R34: CUR_CMD always names a caller of the phase, ISSUED is set only while polling, the CPU is
halted exactly in the second step of a halt phase, Stop sequences run only when Initialized. -/
def Obligations.SequencerInvariantKept : Prop :=
  ∀ s t : State, SequencerInv s → step s = .next t → SequencerInv t

/-- R159, R165, R175, R290 on the state: flags stay consistent with their enables, and the phases that enable
the PLL or switch to it are entered only with the flag they depend on set. -/
def Obligations.ClockInvariantKept : Prop :=
  ∀ s t : State, ClockInv s → step s = .next t → ClockInv t

/-- R47, R101, R151 to R157: each cold phase, and each phase of the cold boot after them up to SI_FIRSTBOOT, has
all the clock writes of the phases before it, HSE_ON, PLL_ON and SW included; LIFECYCLE = 1 implies that
VOS_FULL, LSE_ON, PLL_SRC_HSE, BUSDIV_SET, RTCSEL_LSE and SYSTICK_ON, the ones a Stop keeps, are set. -/
def Obligations.ColdSequenceInvariantKept : Prop :=
  ∀ s t : State, SequencerInv s → ColdInv s → step s = .next t → ColdInv t

/-- R35, R190 to R196, R237, D38: the calibrator, its timer, its interrupt and WAKE_LATENCY stay in step. -/
def Obligations.CalibratorInvariantKept : Prop :=
  ∀ s t : State, CalInv s → step s = .next t → CalInv t

/-- R36, R210, R211: while a critical section is open, interrupts are masked. -/
def Obligations.CriticalSectionInvariantKept : Prop :=
  ∀ s t : State, CriticalInv s → step s = .next t → CriticalInv t

/-- R69, R122 to R129, R289: the teardown is complete before the halt. -/
def Obligations.TeardownInvariantKept : Prop :=
  ∀ s t : State, SequencerInv s → TeardownInv s → step s = .next t → TeardownInv t

/-- R43, R103: the console buffers keep their canonical form, and their indices stay in the buffer. -/
def Obligations.ConsoleInvariantKept : Prop :=
  ∀ s t : State, ConsoleInv s → step s = .next t → ConsoleInv t

/-- R159 and R165 as LMN states them, over the event history: the PLL is never enabled before its source
oscillator's ready flag is observed set, and the system clock is never switched to the PLL before the lock
flag is observed set. -/
def Obligations.OrderingInvariantKept : Prop :=
  ∀ s t : State, OrderInv s → step s = .next t → OrderInv t

/-! ### Rules about every step -/

/-- R32: LIFECYCLE is written only by SI_FIRSTBOOT, from 0 to 1; nothing but reset writes it to 0. -/
def Obligations.LifecycleWrittenOnlyByFirstboot : Prop :=
  Lifecycle.uninitialized.code = 0#1 ∧ Lifecycle.initialized.code = 1#1 ∧
  (∀ s t : State, step s = .next t → resets s = false →
    (s.lifecycle = .initialized → t.lifecycle = .initialized) ∧
    (t.lifecycle ≠ s.lifecycle → s.seqPhase = .siFirstboot ∧ t.lifecycle = .initialized)) ∧
  (∀ (s : State) (d : Draws), s.seqPhase = .siFirstboot → ∃ t, fsmStep d s = some t ∧ t.lifecycle = .initialized)

/-- R196: only CAL_ARM and CAL_RECORD (and reset) write CAL_STATE; once it is 2 it stays 2 until reset, and CAL_ARM
is not entered. -/
def Obligations.CalibratedStaysUntilReset : Prop :=
  (∀ s t : State, step s = .next t → resets s = false → t.calState ≠ s.calState →
    s.seqPhase = .calArm ∨ s.seqPhase = .calRecord) ∧
  (∀ s t : State, CalInv s → s.calState = .calibrated → step s = .next t → resets s = false →
    t.calState = .calibrated ∧ t.seqPhase ≠ .calArm ∧ t.counters.calArm = s.counters.calArm)

/-- R230, R45: a fault bit, once set, stays set, and EVT only grows, until a reset; no step changes the
parameters. -/
def Obligations.FaultsAndHistoryPersist : Prop :=
  ∀ s t : State, step s = .next t →
    t.params = s.params ∧
    (resets s = false → (∀ c, s.fault.get c = true → t.fault.get c = true) ∧ ∃ l, t.evt = s.evt ++ l)

/-- R34, R240: POWER_MODE leaves Run only in the sequencer's halt phases, and returns to Run only by a wake whose
condition holds, or by reset. -/
def Obligations.HaltsAndWakes : Prop :=
  ∀ s t : State, SequencerInv s → step s = .next t → resets s = false →
    (s.powerMode = .run → t.powerMode = .stop → s.seqPhase = .esHalt ∧ s.issued = false) ∧
    (s.powerMode = .run → t.powerMode = .sleepLight → s.seqPhase = .slHalt ∧ s.issued = false) ∧
    (s.powerMode = .stop → t.powerMode ≠ .stop → t.powerMode = .run ∧ stopWake s = true) ∧
    (s.powerMode = .sleepLight → t.powerMode ≠ .sleepLight → t.powerMode = .run ∧ sleepWake s = true) ∧
    (stopWake s = true ↔ ∃ src ∈ [Source.extiWake, .rtcAlarm], s.pending.get src = true ∧ enabled s src = true ∧
      (s.params.wakeNeedsIe = false ∨ s.ie = true)) ∧
    (sleepWake s = true ↔ ∃ src, s.pending.get src = true ∧ enabled s src = true ∧
      (s.params.wakeNeedsIe = false ∨ s.ie = true))

/-- R8, R22, R72: a step of the main or the handler context writes no clock, power, peripheral or counter
field, nor LIFECYCLE, CAL_STATE, POWER_MODE, COLD_PATH, WAKE_LATENCY, WUF or the console buffers; the main
context writes no interrupt bit either. -/
def Obligations.SoftwareWritesOnlyThroughCommands : Prop :=
  ∀ s t : State, step s = .next t → ∀ rest,
    ((∃ a, s.agenda = .main a :: rest) ∨ (∃ src body, s.agenda = .handler src body :: rest)) →
    t.clk = s.clk ∧ t.pwr = s.pwr ∧ t.periph = s.periph ∧ t.counters = s.counters ∧ t.lifecycle = s.lifecycle ∧
    t.calState = s.calState ∧ t.powerMode = s.powerMode ∧ t.coldPath = s.coldPath ∧ t.wakeLatency = s.wakeLatency ∧
    t.wuf = s.wuf ∧ t.txbuf = s.txbuf ∧ t.rxbuf = s.rxbuf ∧
    (∀ a, s.agenda = .main a :: rest → t.pending = s.pending ∧ t.enable = s.enable ∧ t.cal = s.cal)

/-- R27: which phase follows depends on the phase, ISSUED, CUR_CMD, COLD_PATH, PWR_SRC and CAL_STATE, on the
drawn status and, in SI_ENTRY, on the LIFECYCLE that COLD_PATH is just written from (R102), and on nothing
else. -/
def Obligations.NextPhaseDependsOn : Prop :=
  ∀ (d d' : Draws) (s s' t t' : State), fsmStep d s = some t → fsmStep d' s' = some t' →
    s'.seqPhase = s.seqPhase → s'.issued = s.issued → s'.curCmd = s.curCmd → s'.coldPath = s.coldPath →
    s'.pwr.pwrSrc = s.pwr.pwrSrc → s'.calState = s.calState → s'.lifecycle = s.lifecycle → d'.status = d.status →
    t'.seqPhase = t.seqPhase ∧ t'.curCmd = t.curCmd ∧ t'.issued = t.issued

/-! ### The environment (R139, R175, R235) and handlers (R236 to R242) -/

/-- R139: the wake step of ES_HALT replaces the clock fields by a draw; the drawn fields obey the laws, the others
keep their values, and every combination the laws allow is some draw's. -/
def Obligations.StopWakeDraw : Prop :=
  (∀ (s t : State) (d : Draws), s.seqPhase = .esHalt → s.issued = true → fsmStep d s = some t →
    t.clk = s.clk.afterWake d.wakeClk) ∧
  ∀ c : ClkCtrl,
    (∀ d : WakeDraw, let a := c.afterWake d
      (a.hseRdy = true → a.hseOn = true) ∧ (a.pllLock = true → a.pllOn = true ∧ a.hseRdy = true) ∧
      (a.sws = .pll → a.pllLock = true) ∧ (a.pllOn = false → a.sw = .internal) ∧
      a.pllSrcHse = c.pllSrcHse ∧ a.vosFull = c.vosFull ∧ a.lseOn = c.lseOn ∧ a.lseRdy = c.lseRdy ∧
      a.rtcselLse = c.rtcselLse ∧ a.busdivSet = c.busdivSet ∧ a.systickOn = c.systickOn) ∧
    (∀ (vr ho hr po pl : Bool) (sw sws : ClockSource),
      (hr = true → ho = true) → (pl = true → po = true ∧ hr = true) → (sws = .pll → pl = true) →
      (po = false → sw = .internal) →
      ∃ d, c.afterWake d = { c with vosRdy := vr, hseOn := ho, hseRdy := hr, pllOn := po, pllLock := pl, sw := sw, sws := sws })

/-- R175: each clock-tree input changes only as the table permits, in a step of the environment or by a Stop wake
or a reset, no ready flag falls otherwise, and each permitted change can be made. -/
def Obligations.ReadinessChanges : Prop :=
  (∀ s t : State, step s = .next t → resets s = false → ¬ leavesStop s t →
    (s.clk.vosRdy ≠ t.clk.vosRdy → t.clk.vosRdy = true ∧ s.clk.vosFull = true ∧ ∃ r, s.agenda = .env .raiseVosRdy :: r) ∧
    (s.clk.hseRdy ≠ t.clk.hseRdy → t.clk.hseRdy = true ∧ s.clk.hseOn = true ∧ ∃ r, s.agenda = .env .raiseHseRdy :: r) ∧
    (s.clk.lseRdy ≠ t.clk.lseRdy → t.clk.lseRdy = true ∧ s.clk.lseOn = true ∧ ∃ r, s.agenda = .env .raiseLseRdy :: r) ∧
    (s.clk.pllLock ≠ t.clk.pllLock → t.clk.pllLock = true ∧ s.clk.pllOn = true ∧ s.clk.pllSrcHse = true ∧
      s.clk.hseRdy = true ∧ ∃ r, s.agenda = .env .raisePllLock :: r) ∧
    (s.clk.sws ≠ t.clk.sws → t.clk.sws = s.clk.sw ∧ (s.clk.sw = .internal ∨ (s.clk.sw = .pll ∧ s.clk.pllLock = true)) ∧
      ∃ r, s.agenda = .env .updateSws :: r)) ∧
  (∀ s : State,
    (s.clk.vosRdy = false → s.clk.vosFull = true → envStep .raiseVosRdy s = { s with clk := { s.clk with vosRdy := true } }) ∧
    (s.clk.hseRdy = false → s.clk.hseOn = true → envStep .raiseHseRdy s = { s with clk := { s.clk with hseRdy := true } }) ∧
    (s.clk.lseRdy = false → s.clk.lseOn = true → envStep .raiseLseRdy s = { s with clk := { s.clk with lseRdy := true } }) ∧
    (s.clk.pllLock = false → s.clk.pllOn = true → s.clk.pllSrcHse = true → s.clk.hseRdy = true →
      envStep .raisePllLock s = { s with clk := { s.clk with pllLock := true } }) ∧
    (s.clk.sw = .internal ∨ (s.clk.sw = .pll ∧ s.clk.pllLock = true) →
      envStep .updateSws s = { s with clk := { s.clk with sws := s.clk.sw } }))

/-- R235, R37, R43, R44, D29, D51: the environment sets a PENDING bit under the table's condition and with it, for
EXTI and the RTC alarm, WUF; CAL_TIMER only while the timer is armed and not pending, SYSTICK only with
SYSTICK_ON; without the condition nothing changes. Its enables are ENABLE[0], [1] and [4] alone; PWR_SRC may
become either value; the console collaborator moves an index or stores a unit of either buffer. Each changes
nothing else. (The model's readings: a bit that is already set may be set again, WUF with it, log entry 16;
PWR_SRC changes at any step, log entry 17; the collaborator's moves, only within the buffer and only once head
and tail hold a value, log entry 14.) -/
def Obligations.InterruptSources : Prop :=
  ∀ s : State,
    (envStep (.setPending .extiWake) s = { s with pending := { s.pending with extiWake := true }, wuf := true }) ∧
    (envStep (.setPending .rtcAlarm) s = { s with pending := { s.pending with rtcAlarm := true }, wuf := true }) ∧
    (s.cal.timerArmed = true → s.pending.calTimer = false →
      envStep (.setPending .calTimer) s = { s with pending := { s.pending with calTimer := true } }) ∧
    (¬ (s.cal.timerArmed = true ∧ s.pending.calTimer = false) → envStep (.setPending .calTimer) s = s) ∧
    (s.clk.systickOn = true → envStep (.setPending .sysTick) s = { s with pending := { s.pending with sysTick := true } }) ∧
    (s.clk.systickOn = false → envStep (.setPending .sysTick) s = s) ∧
    (envStep (.setPending .periph) s = { s with pending := { s.pending with periph := true } }) ∧
    (∀ b, envStep (.setEnable .extiWake b) s = { s with enable := { s.enable with extiWake := b } } ∧
      envStep (.setEnable .rtcAlarm b) s = { s with enable := { s.enable with rtcAlarm := b } } ∧
      envStep (.setEnable .periph b) s = { s with enable := { s.enable with periph := b } } ∧
      envStep (.setEnable .calTimer b) s = s ∧ envStep (.setEnable .sysTick b) s = s) ∧
    (∀ p, envStep (.setPwrSrc p) s = { s with pwr := { s.pwr with pwrSrc := p } }) ∧
    (∀ a, envStep (.console .tx a) s = { s with txbuf := s.txbuf.act s.params a } ∧
      envStep (.console .rx a) s = { s with rxbuf := s.rxbuf.act s.params a }) ∧
    (∀ r : Ring, r.head.isSome = true ∧ r.tail.isSome = true →
      (∀ i, i < s.params.consoleCap → r.act s.params (.setHead i) = { r with head := some i } ∧
        r.act s.params (.setTail i) = { r with tail := some i }) ∧
      (∀ i, ¬ i < s.params.consoleCap → r.act s.params (.setHead i) = r ∧ r.act s.params (.setTail i) = r) ∧
      (∀ i u, i < s.params.consoleCap ∧ u < 2 ^ s.params.consoleUnitBits →
        ∃ m, r.act s.params (.store i u) = { r with contents := m } ∧ m.read i = some u ∧
          ∀ j, j ≠ i → m.read j = r.contents.read j) ∧
      (∀ i u, ¬ (i < s.params.consoleCap ∧ u < 2 ^ s.params.consoleUnitBits) → r.act s.params (.store i u) = r)) ∧
    (∀ (r : Ring) (a : RingAction), ¬ (r.head.isSome = true ∧ r.tail.isSome = true) → r.act s.params a = r)

/-- R236, R237, R238: a handler step happens exactly under R236's condition; the CAL_TIMER handler sets CAL_DONE
and clears its pending bit, its enable and TIMER_ARMED; every other handler that writes no command clears its
pending bit; each logs `Handler` and changes no other field of the block, however often it reads the window
(a read moves the model's own read port and draw counter alone). A read in the body returns the word of the state
after the handler's entry (the model's choice, log entry 25). While the condition fails nothing changes. -/
def Obligations.HandlerSteps : Prop :=
  ∀ (s : State) (src : Source) (body : List Access) (rest : List Action), s.agenda = .handler src body :: rest →
    (¬ (s.ie = true ∧ s.powerMode = .run ∧ s.pending.get src = true ∧ enabled s src = true) →
      step s = .next { s with agenda := rest }) ∧
    (s.ie = true → s.powerMode = .run → s.pending.get src = true → enabled s src = true →
      (∀ a ∈ body, ∃ addr, a = .read addr 4 ∧ s.params.blockBase.toNat ≤ addr.toNat ∧
        (addr.toNat - s.params.blockBase.toNat) % 4 = 0 ∧ addr.toNat - s.params.blockBase.toNat ≤ 0x24) →
      ∃ rd n, (body = [] → rd = s.readData ∧ n = s.tick) ∧
        (∀ addr, body = [.read addr 4] → step s = .next (memRead addr 4 (handlerEntry src { s with agenda := rest }))) ∧
        (src = .calTimer → step s = .next { s with agenda := rest, readData := rd, tick := n, cal := ⟨false, true⟩, pending := { s.pending with calTimer := false }, enable := { s.enable with calTimer := false }, evt := s.evt ++ [.handler .calTimer] }) ∧
        (src ≠ .calTimer → step s = .next { s with agenda := rest, readData := rd, tick := n, pending := s.pending.set src false, evt := s.evt ++ [.handler src] }))

/-- R238, R242: whatever a handler does, one command or a CS_BEGIN with its CS_END, it ends in the step it begins
with IE as it was, and raises no BUS_ERROR; its command is run as the main context's would be. (Which bodies a
handler may have is the model's reading, log entry 9; that its command meets the state after the entry's effects
is the model's choice, log entry 25.) -/
def Obligations.HandlerKeepsInterruptEnable : Prop :=
  ∀ (s t : State) (src : Source) (body : List Access) (rest : List Action), CriticalInv s →
    s.agenda = .handler src body :: rest → step s = .next t →
    t.ie = s.ie ∧ t.csActive = s.csActive ∧ t.fault.busError = s.fault.busError ∧
    (∀ w, body = [.write s.params.blockBase 4 w] → handlerEnabled s src = true → src ≠ .calTimer →
      decodeWord w ≠ .ok .csBegin → presentCommand w (handlerEntry src { s with agenda := rest }) = .next t)

/-- R166: CLOCK_STATE = Running from CC_SYSTICK on, and from CR_SW's completion on, until a Stop wake or a
reset. -/
def Obligations.RunningUntilStopOrReset : Prop :=
  (∀ s : State, ClockInv s → s.seqPhase = .ccSystick → clockState s = .running) ∧
  (∀ (s t : State) (d : Draws), ClockInv s → s.seqPhase = .crSw → fsmStep d s = some t → t.seqPhase ≠ .crSw → clockState t = .running) ∧
  (∀ s t : State, clockState s = .running → step s = .next t → resets s = false → ¬ leavesStop s t → clockState t = .running)

/-- R233: FATAL is entered only by a cold step's FAIL, with CLK_CFG_FAIL set; in it BUSY and STATUS.FATAL read 1
and the FSM has no step; only a reset leaves it; nothing it was doing is rolled back. -/
def Obligations.FatalHoldsUntilReset : Prop :=
  (∀ s t : State, s.seqPhase = .fatal → step s = .next t → resets s = false →
    t.seqPhase = .fatal ∧ busy t = true ∧ isFatal t = true ∧ t.clk.pllOn = s.clk.pllOn ∧ t.clk.sw = s.clk.sw) ∧
  (∀ (s : State) (d : Draws), s.seqPhase = .fatal → fsmStep d s = none) ∧
  (∀ s t : State, s.seqPhase ≠ .fatal → step s = .next t → t.seqPhase = .fatal →
    s.seqPhase ∈ [Phase.ccVos, .ccOsc, .ccPll, .ccSysclk, .ccRtcclk] ∧ s.issued = true ∧ t.fault.clkCfgFail = true ∧
    t.clk = s.clk ∧ t.curCmd = s.curCmd)

/-- R234, R287: a waiting phase whose condition does not hold has no step, and the machine's FSM turn changes no
field: no bit is set and nothing is logged. -/
def Obligations.UnmetWaitsHaveNoStep : Prop :=
  ∀ (s : State) (d : Draws),
    ((s.issued = true ∧
      ((s.seqPhase = .crVos ∧ s.clk.vosRdy = false) ∨ (s.seqPhase = .crHse ∧ s.clk.hseRdy = false) ∨
       (s.seqPhase = .crPll ∧ s.clk.pllLock = false) ∨ (s.seqPhase = .crSw ∧ s.clk.sws ≠ .pll) ∨
       (s.seqPhase = .esHalt ∧ stopWake s = false) ∨ (s.seqPhase = .slHalt ∧ sleepWake s = false) ∨
       (s.seqPhase ∈ [Phase.ccVos, .ccOsc, .ccPll, .ccSysclk, .ccRtcclk] ∧ d.status = none))) ∨
     (s.seqPhase = .calWait ∧ s.cal.calDone = false)) →
    fsmStep d s = none ∧ ∀ rest, s.agenda = .fsm d :: rest → step s = .next { s with agenda := rest }

/-! ### The phases, one FSM step each -/

/-- R152: with ISSUED = 1 a cold step's FAIL is taken at any time and traps in FATAL, its OK is taken only when the
phase's condition holds, and without a status there is no step. -/
def Obligations.ColdStepCompletion : Prop :=
  ∀ (s : State) (d : Draws) (k : Nat) (p succ : Phase) (cond : Bool) (seen : List LogEvent),
    (k, p, cond, seen, succ) ∈
      [(1, Phase.ccVos, s.clk.vosRdy, [LogEvent.observed .vosRdy], Phase.ccOsc),
       (2, .ccOsc, s.clk.hseRdy && s.clk.lseRdy, [.observed .hseLseRdy], .ccPll),
       (3, .ccPll, s.clk.pllLock, [.observed .pllLock], .ccSysclk),
       (4, .ccSysclk, decide (s.clk.sws = .pll), [.observed .swsPll], .ccRtcclk),
       (5, .ccRtcclk, true, [], .ccSystick)] →
    s.seqPhase = p → s.issued = true →
    (d.status = some .fail → fsmStep d s = some { s with evt := s.evt ++ [.status k .fail, .fault .clkCfgFail, .fatal], fault := { s.fault with clkCfgFail := true }, issued := false, seqPhase := .fatal }) ∧
    (d.status = some .ok → cond = true → fsmStep d s = some { s with evt := s.evt ++ (seen ++ [.status k .ok]), issued := false, seqPhase := succ }) ∧
    (d.status = some .ok → cond = false → fsmStep d s = none) ∧
    (d.status = none → fsmStep d s = none)

/-- R151, R153 to R157: the issue step of each cold phase, and CC_SYSTICK's one step. -/
def Obligations.ColdPhaseWrites : Prop :=
  ∀ (s : State) (d : Draws),
    (s.seqPhase = .ccVos → s.issued = false → fsmStep d s = some { s with clk := { s.clk with vosFull := true }, counters := { s.counters with coldSeq := s.counters.coldSeq + 1 }, evt := s.evt ++ [.clkWrite .vosFull 1], issued := true }) ∧
    (s.seqPhase = .ccOsc → s.issued = false → fsmStep d s = some { s with clk := { s.clk with hseOn := true, lseOn := true }, evt := s.evt ++ [.clkWrite .hseOn 1, .clkWrite .lseOn 1], issued := true }) ∧
    (s.seqPhase = .ccPll → s.issued = false → fsmStep d s = some { s with clk := { s.clk with pllSrcHse := true, pllOn := true }, evt := s.evt ++ [.clkWrite .pllSrcHse 1, .clkWrite .pllOn 1], issued := true }) ∧
    (s.seqPhase = .ccSysclk → s.issued = false → fsmStep d s = some { s with clk := { s.clk with sw := .pll, busdivSet := true }, evt := s.evt ++ [.clkWrite .sw 3, .clkWrite .busdivSet 1], issued := true }) ∧
    (s.seqPhase = .ccRtcclk → s.issued = false → fsmStep d s = some { s with clk := { s.clk with rtcselLse := true }, evt := s.evt ++ [.clkWrite .rtcselLse 1], issued := true }) ∧
    (s.seqPhase = .ccSystick → s.curCmd = some .sysInit → fsmStep d s = some { s with clk := { s.clk with systickOn := true }, evt := s.evt ++ [.clkWrite .systickOn 1], seqPhase := .siConsole }) ∧
    (s.seqPhase = .ccSystick → s.curCmd ≠ some .sysInit → fsmStep d s = some { s with clk := { s.clk with systickOn := true }, evt := s.evt ++ [.clkWrite .systickOn 1], seqPhase := .idle, curCmd := none, issued := false })

/-- R161 to R164: the issue and the completion of each resume phase. -/
def Obligations.ResumePhases : Prop :=
  ∀ (s : State) (d : Draws),
    (s.seqPhase = .crVos → s.issued = false → fsmStep d s = some { s with clk := { s.clk with vosFull := true }, counters := { s.counters with resumeSeq := s.counters.resumeSeq + 1 }, evt := s.evt ++ [.clkWrite .vosFull 1], issued := true }) ∧
    (s.seqPhase = .crVos → s.issued = true → s.clk.vosRdy = true → fsmStep d s = some { s with evt := s.evt ++ [.observed .vosRdy], issued := false, seqPhase := .crHse }) ∧
    (s.seqPhase = .crVos → s.issued = true → s.clk.vosRdy = false → fsmStep d s = none) ∧
    (s.seqPhase = .crHse → s.issued = false → fsmStep d s = some { s with clk := { s.clk with hseOn := true }, evt := s.evt ++ [.clkWrite .hseOn 1], issued := true }) ∧
    (s.seqPhase = .crHse → s.issued = true → s.clk.hseRdy = true → fsmStep d s = some { s with evt := s.evt ++ [.observed .hseRdy], issued := false, seqPhase := .crPll }) ∧
    (s.seqPhase = .crHse → s.issued = true → s.clk.hseRdy = false → fsmStep d s = none) ∧
    (s.seqPhase = .crPll → s.issued = false → fsmStep d s = some { s with clk := { s.clk with pllSrcHse := true, pllOn := true }, evt := s.evt ++ [.clkWrite .pllSrcHse 1, .clkWrite .pllOn 1], issued := true }) ∧
    (s.seqPhase = .crPll → s.issued = true → s.clk.pllLock = true → fsmStep d s = some { s with evt := s.evt ++ [.observed .pllLock], issued := false, seqPhase := .crSw }) ∧
    (s.seqPhase = .crPll → s.issued = true → s.clk.pllLock = false → fsmStep d s = none) ∧
    (s.seqPhase = .crSw → s.issued = false → fsmStep d s = some { s with clk := { s.clk with sw := .pll }, evt := s.evt ++ [.clkWrite .sw 3], issued := true }) ∧
    (s.seqPhase = .crSw → s.issued = true → s.clk.sws = .pll → (s.curCmd = some .sysInit ∨ s.curCmd = some .exitStop) → fsmStep d s = some { s with evt := s.evt ++ [.observed .swsPll], issued := false, seqPhase := .siAdc }) ∧
    (s.seqPhase = .crSw → s.issued = true → s.clk.sws = .pll → ¬ (s.curCmd = some .sysInit ∨ s.curCmd = some .exitStop) → fsmStep d s = some { s with evt := s.evt ++ [.observed .swsPll], issued := false, seqPhase := .idle, curCmd := none }) ∧
    (s.seqPhase = .crSw → s.issued = true → s.clk.sws = .internal → fsmStep d s = none)

/-- R158: the issue steps of CC_PLL and CR_PLL turn the PLL on with source HSE and the one ratio, in the cold and the
resume sequence alike; no other step turns it on, and none but the Stop wake and a reset turns it off. -/
def Obligations.PllConfiguration : Prop :=
  (∀ (s : State) (d : Draws), (s.seqPhase = .ccPll ∨ s.seqPhase = .crPll) → s.issued = false →
    ∃ t, fsmStep d s = some t ∧ t.clk.pllOn = true ∧ t.clk.pllSrcHse = true ∧
      pllRatio t = some (s.params.pllMul, s.params.pllDiv)) ∧
  (∀ s t : State, step s = .next t → resets s = false → ¬ leavesStop s t →
    (s.clk.pllOn = true → t.clk.pllOn = true) ∧
    (s.clk.pllOn = false → t.clk.pllOn = true →
      (s.seqPhase = .ccPll ∨ s.seqPhase = .crPll) ∧ s.issued = false ∧ t.clk.pllSrcHse = true ∧
      pllRatio t = some (s.params.pllMul, s.params.pllDiv)))

/-- R102 to R111: the phases of SYS_INIT. -/
def Obligations.SysInitPhases : Prop :=
  ∀ (s : State) (d : Draws),
    (s.seqPhase = .siEntry → s.lifecycle = .uninitialized → fsmStep d s = some { s with coldPath := true, seqPhase := .ccVos }) ∧
    (s.seqPhase = .siEntry → s.lifecycle = .initialized → fsmStep d s = some { s with coldPath := false, seqPhase := .crVos }) ∧
    (s.seqPhase = .siConsole → fsmStep d s = some { s with txbuf := { s.txbuf with head := some 0, tail := some 0 }, rxbuf := { s.rxbuf with head := some 0, tail := some 0 }, periph := { s.periph with consoleInit := true }, evt := s.evt ++ [.init .console], seqPhase := .siRtc }) ∧
    (s.seqPhase = .siRtc → fsmStep d s = some { s with periph := { s.periph with rtcInit := true }, evt := s.evt ++ [.init .rtc], seqPhase := .siLeds }) ∧
    (s.seqPhase = .siLeds → fsmStep d s = some { s with periph := { s.periph with ledsOff := true }, evt := s.evt ++ [.ledsOff], seqPhase := .siPins }) ∧
    (s.seqPhase = .siPins → fsmStep d s = some { s with periph := { s.periph with unusedPinsLp := true }, evt := s.evt ++ [.unusedPinsLp], seqPhase := .siLppolicy }) ∧
    (s.seqPhase = .siLppolicy → s.pwr.pwrSrc = .batteryPower → fsmStep d s = some { s with pwr := { s.pwr with fullShutdownEn := false }, evt := s.evt ++ [.pwrWrite .fullShutdownEn 0], seqPhase := .siAdc }) ∧
    (s.seqPhase = .siLppolicy → s.pwr.pwrSrc = .externalPower → fsmStep d s = some { s with seqPhase := .siAdc }) ∧
    (s.seqPhase = .siAdc → fsmStep d s = some { s with periph := { s.periph with adcInit := true }, evt := s.evt ++ [.init .adc], seqPhase := .siRadio }) ∧
    (s.seqPhase = .siRadio → fsmStep d s = some { s with periph := { s.periph with radioBusInit := true, stopPinsLp := false }, evt := s.evt ++ [.init .radioBus], seqPhase := if s.curCmd = some .sysInit ∧ s.coldPath = true then .siFirstboot else .siWdg }) ∧
    (s.seqPhase = .siFirstboot → fsmStep d s = some { s with lifecycle := .initialized, periph := { s.periph with radioDbgInit := true }, evt := s.evt ++ [.init .radioDbg], seqPhase := if s.pwr.pwrSrc = .batteryPower then .calCheck else .siWdg }) ∧
    (s.seqPhase = .siWdg → s.curCmd = some .exitStop → fsmStep d s = some { s with periph := { s.periph with wdgInit := true }, evt := s.evt ++ [.init .wdg], seqPhase := .xsCsEnd }) ∧
    (s.seqPhase = .siWdg → s.curCmd ≠ some .exitStop → fsmStep d s = some { s with periph := { s.periph with wdgInit := true }, evt := s.evt ++ [.init .wdg], seqPhase := .idle, curCmd := none, issued := false })

/-- R121 to R128, R141, R142: the phases of ENTER_STOP up to the halt, and ExitStop's first and last phase; the Begin
and End effects are those of the commands. That the chain goes on also where Begin or End faults (CS_NEST,
CS_UNPAIRED) is the model's reading (DEDUCED, log entry 21). -/
def Obligations.StopPhases : Prop :=
  ∀ (s : State) (d : Draws),
    (s.seqPhase = .esCsBegin → ∃ u, exec .csBegin s = .next u ∧ fsmStep d s = some { u with seqPhase := .esRadioDeinit }) ∧
    (s.seqPhase = .esRadioDeinit → fsmStep d s = some { s with periph := { s.periph with radioBusInit := false }, evt := s.evt ++ [.deinit .radioBus], seqPhase := .esAdcDeinit }) ∧
    (s.seqPhase = .esAdcDeinit → fsmStep d s = some { s with periph := { s.periph with adcInit := false }, evt := s.evt ++ [.deinit .adc], seqPhase := .esPins }) ∧
    (s.seqPhase = .esPins → fsmStep d s = some { s with periph := { s.periph with stopPinsLp := true }, evt := s.evt ++ (if s.params.hasUsb = true then [.pinsLowLeak .osc, .pinsLowLeak .usb] else [.pinsLowLeak .osc]), seqPhase := .esCsEnd }) ∧
    (s.seqPhase = .esCsEnd → ∃ u, exec (.csEnd (BitVec.ofBool s.csToken)) s = .next u ∧ fsmStep d s = some { u with seqPhase := .esBorOff }) ∧
    (s.seqPhase = .esBorOff → fsmStep d s = some { s with pwr := { s.pwr with borEn := false }, evt := s.evt ++ [.pwrWrite .borEn 0], seqPhase := .esClrWuf }) ∧
    (s.seqPhase = .esClrWuf → fsmStep d s = some { s with wuf := false, evt := s.evt ++ [.pwrWrite .wuf 0], seqPhase := .esUlpFwu }) ∧
    (s.seqPhase = .esUlpFwu → fsmStep d s = some { s with pwr := { s.pwr with ulp := true, fwu := true }, evt := s.evt ++ [.pwrWrite .ulp 1, .pwrWrite .fwu 1], seqPhase := .esHalt }) ∧
    (s.seqPhase = .xsCsBegin → ∃ u, exec .csBegin s = .next u ∧ fsmStep d s = some { u with seqPhase := .crVos }) ∧
    (s.seqPhase = .xsCsEnd → ∃ u, exec (.csEnd (BitVec.ofBool s.csToken)) s = .next u ∧ fsmStep d s = some { u with seqPhase := .idle, curCmd := none, issued := false })

/-- R129, R131: the halts of Stop and Sleep, the wake taken exactly when the wake condition holds, by a source that
satisfies it, any one if several. -/
def Obligations.HaltPhases : Prop :=
  ∀ (s : State) (d : Draws),
    (s.seqPhase = .esHalt → s.issued = false → fsmStep d s = some { s with pwr := { s.pwr with regLp := true }, powerMode := .stop, evt := s.evt ++ [.pwrWrite .regLp 1, .halt .stop], issued := true }) ∧
    (s.seqPhase = .esHalt → s.issued = true → stopWake s = true → ∃ src, src ∈ [Source.extiWake, .rtcAlarm] ∧ wakes s src = true ∧
      fsmStep d s = some { s with powerMode := .run, evt := s.evt ++ [.wake .stop src], clk := s.clk.afterWake d.wakeClk, curCmd := some .exitStop, issued := false, seqPhase := .xsCsBegin }) ∧
    (s.seqPhase = .esHalt → s.issued = true → stopWake s = false → fsmStep d s = none) ∧
    (s.seqPhase = .slHalt → s.issued = false → fsmStep d s = some { s with powerMode := .sleepLight, evt := s.evt ++ [.halt .sleepLight], issued := true }) ∧
    (s.seqPhase = .slHalt → s.issued = true → sleepWake s = true → ∃ src, wakes s src = true ∧
      fsmStep d s = some { s with powerMode := .run, evt := s.evt ++ [.wake .sleepLight src], seqPhase := .idle, curCmd := none, issued := false }) ∧
    (s.seqPhase = .slHalt → s.issued = true → sleepWake s = false → fsmStep d s = none) ∧
    (∀ src ∈ [Source.extiWake, .rtcAlarm], s.seqPhase = .esHalt → s.issued = true → wakes s src = true → d.wakeSrc = src →
      ∃ t, fsmStep d s = some t ∧ t.evt = s.evt ++ [.wake .stop src]) ∧
    (∀ src, s.seqPhase = .slHalt → s.issued = true → wakes s src = true → d.wakeSrc = src →
      ∃ t, fsmStep d s = some t ∧ t.evt = s.evt ++ [.wake .sleepLight src])

/-- R191 to R195: the phases of the calibrator. -/
def Obligations.CalibratorPhases : Prop :=
  ∀ (s : State) (d : Draws),
    (s.seqPhase = .calCheck → s.calState = .calibrated → s.curCmd = some .sysInit → fsmStep d s = some { s with seqPhase := .siWdg }) ∧
    (s.seqPhase = .calCheck → s.calState = .calibrated → s.curCmd ≠ some .sysInit → fsmStep d s = some { s with seqPhase := .idle, curCmd := none, issued := false }) ∧
    (s.seqPhase = .calCheck → s.calState ≠ .calibrated → fsmStep d s = some { s with seqPhase := .calArm }) ∧
    (s.seqPhase = .calArm → fsmStep d s = some { s with calState := .calibrating, cal := ⟨true, false⟩, enable := { s.enable with calTimer := true }, counters := { s.counters with calArm := s.counters.calArm + 1 }, evt := s.evt ++ [.timerArm s.params.calDuration], seqPhase := .calWait }) ∧
    (s.seqPhase = .calWait → s.cal.calDone = true → fsmStep d s = some { s with seqPhase := .calRecord }) ∧
    (s.seqPhase = .calWait → s.cal.calDone = false → fsmStep d s = none) ∧
    (s.seqPhase = .calRecord → s.curCmd = some .sysInit → fsmStep d s = some { s with wakeLatency := some d.wakeLatency, evt := s.evt ++ [.recordWakeLatency d.wakeLatency], calState := .calibrated, seqPhase := .siWdg }) ∧
    (s.seqPhase = .calRecord → s.curCmd ≠ some .sysInit → fsmStep d s = some { s with wakeLatency := some d.wakeLatency, evt := s.evt ++ [.recordWakeLatency d.wakeLatency], calState := .calibrated, seqPhase := .idle, curCmd := none, issued := false })

/-! ### Whole commands, from the CMD write to BUSY = 0, under the healthy schedule

Each says what the command leaves of every field of the state: what is not named is as before. -/

/-- CLK_RESUME (R160, V-CR-1 to V-CR-3): from rest, whatever the clock fields were, the clock is Running and only
the fields R160 names have been written. -/
def Obligations.ClkResumeRunsToRunning : Prop :=
  ∀ (s : State) (d : Draws) (rest : List Action), atRest s →
    s.agenda = cmdWrite s.params 0x00000011#32 :: (resumeSchedule d ++ rest) →
    runSteps 13 s = .next { s with agenda := rest, clk := resumed s.clk, counters := { s.counters with resumeSeq := s.counters.resumeSeq + 1 }, evt := s.evt ++ .cmd .clkResume :: resumeEvents }

/-- CLK_COLD (R150, V-CC-1, V-CC-2). -/
def Obligations.ClkColdRunsToRunning : Prop :=
  ∀ (s : State) (d : Draws) (rest : List Action), atRest s →
    s.agenda = cmdWrite s.params 0x00000010#32 :: (coldSchedule d ++ rest) →
    runSteps 17 s = .next { s with agenda := rest, clk := coldStarted s.clk, counters := { s.counters with coldSeq := s.counters.coldSeq + 1 }, evt := s.evt ++ .cmd .clkCold :: coldEvents }

/-- CALIBRATE (R190, V-CAL-1, V-CAL-2, P3): with interrupts enabled it arms the timer once and records the latency;
when already Calibrated it returns in one FSM step and logs its `Cmd` alone. -/
def Obligations.CalibrateArmsOnce : Prop :=
  (∀ (s : State) (d : Draws) (rest : List Action), atRest s → s.ie = true → s.powerMode = .run → s.calState ≠ .calibrated →
    s.agenda = cmdWrite s.params 0x00000020#32 :: (calSchedule d ++ rest) →
    runSteps 7 s = .next { s with agenda := rest, calState := .calibrated, cal := ⟨false, true⟩, enable := { s.enable with calTimer := false }, pending := { s.pending with calTimer := false }, counters := { s.counters with calArm := s.counters.calArm + 1 }, wakeLatency := some d.wakeLatency, evt := s.evt ++ [.cmd .calibrate, .timerArm s.params.calDuration, .handler .calTimer, .recordWakeLatency d.wakeLatency] }) ∧
  (∀ (s : State) (d : Draws) (rest : List Action), atRest s → s.calState = .calibrated →
    s.agenda = cmdWrite s.params 0x00000020#32 :: .fsm d :: rest →
    runSteps 2 s = .next { s with agenda := rest, evt := s.evt ++ [.cmd .calibrate] })

/-- ENTER_SLEEP (R130, D48, V-SL-1): an enabled interrupt wakes it, and after its handler nothing is changed but the
pending bit and EVT. The interrupt is one the environment may raise at any step (EXTI, the RTC alarm, PERIPH)
or SYSTICK with the tick on. -/
def Obligations.EnterSleepWakesOnInterrupt : Prop :=
  ∀ (s : State) (d : Draws) (rest : List Action) (src : Source), atRest s → s.ie = true → s.powerMode = .run →
    src ≠ .calTimer → enabled s src = true → d.wakeSrc = src →
    s.agenda = cmdWrite s.params 0x00000002#32 :: .fsm d :: .env (.setPending src) :: .fsm d :: .handler src [] :: rest →
    runSteps 5 s = .next { s with agenda := rest, wuf := s.wuf || decide (src = .extiWake ∨ src = .rtcAlarm), pending := s.pending.set src false, evt := s.evt ++ [.cmd .enterSleep, .halt .sleepLight, .wake .sleepLight src, .handler src] }

/-- EXIT_STOP, the explicit form (R140, V-XS-1): the resume clock and the peripherals, inside one critical section;
IE is as it was. -/
def Obligations.ExitStopRebuilds : Prop :=
  ∀ (s : State) (d : Draws) (rest : List Action), atRest s → s.lifecycle = .initialized → s.csActive = false →
    s.agenda = cmdWrite s.params 0x00000004#32 :: .fsm d :: (resumeSchedule d ++ (List.replicate 4 (.fsm d) ++ rest)) →
    runSteps 18 s = .next { s with agenda := rest, csToken := s.ie, clk := resumed s.clk, counters := { s.counters with resumeSeq := s.counters.resumeSeq + 1 }, periph := { s.periph with adcInit := true, radioBusInit := true, stopPinsLp := false, wdgInit := true }, evt := s.evt ++ .cmd .exitStop :: .csBegin s.ie :: (resumeEvents ++ [.init .adc, .init .radioBus, .init .wdg, .csEnd s.ie]) }

/-- ENTER_STOP (R120, R69, R47, V-ES-1, P7): teardown, halt, wake by EXTI or the RTC alarm with any clock draw, and
the automatic ExitStop: the clock is Running on return, the ADC and the radio are rebuilt, LIFECYCLE and every
field that is not named are as before. -/
def Obligations.EnterStopReturnsRebuilt : Prop :=
  ∀ (s : State) (d : Draws) (rest : List Action) (src : Source), atRest s → s.lifecycle = .initialized →
    s.csActive = false → s.ie = true → s.powerMode = .run → (src = .extiWake ∨ src = .rtcAlarm) → enabled s src = true →
    d.wakeSrc = src →
    s.agenda = cmdWrite s.params 0x00000003#32 :: (List.replicate 9 (.fsm d) ++
      (.env (.setPending src) :: .fsm d :: .handler src [] :: .fsm d :: (resumeSchedule d ++ (List.replicate 4 (.fsm d) ++ rest)))) →
    ∃ t, runSteps 30 s = .next t ∧ clockState t = .running ∧
      t = { s with agenda := rest, csToken := true, wuf := true, clk := resumed s.clk, counters := { s.counters with resumeSeq := s.counters.resumeSeq + 1 }, pwr := { s.pwr with borEn := false, ulp := true, fwu := true, regLp := true }, periph := { s.periph with adcInit := true, radioBusInit := true, stopPinsLp := false, wdgInit := true }, pending := s.pending.set src false, evt := s.evt ++ ([.cmd .enterStop, .csBegin true, .deinit .radioBus, .deinit .adc, .pinsLowLeak .osc] ++ (if s.params.hasUsb = true then [.pinsLowLeak .usb] else []) ++ [.csEnd true, .pwrWrite .borEn 0, .pwrWrite .wuf 0, .pwrWrite .ulp 1, .pwrWrite .fwu 1, .pwrWrite .regLp 1, .halt .stop, .wake .stop src, .handler src, .csBegin true] ++ resumeEvents ++ [.init .adc, .init .radioBus, .init .wdg, .csEnd true]) }

/-- SYS_INIT's cold branch (R101, R281, P6, V-SI-1, V-SI-2): on battery the block is Initialized and Calibrated, the
full-shutdown policy is off; on external power it is Initialized, calibration and the policy untouched. -/
def Obligations.SysInitColdBoot : Prop :=
  (∀ (s : State) (d : Draws) (rest : List Action), atRest s → s.lifecycle = .uninitialized → s.ie = true → s.powerMode = .run →
    s.calState ≠ .calibrated → s.pwr.pwrSrc = .batteryPower →
    s.agenda = cmdWrite s.params 0x00000001#32 :: .fsm d :: (coldSchedule d ++ (List.replicate 8 (.fsm d) ++ (calSchedule d ++ .fsm d :: rest))) →
    runSteps 33 s = .next { s with agenda := rest, coldPath := true, lifecycle := .initialized, calState := .calibrated, clk := coldStarted s.clk, pwr := { s.pwr with fullShutdownEn := false }, periph := ⟨true, true, true, true, true, true, true, true, false⟩, pending := { s.pending with calTimer := false }, enable := { s.enable with calTimer := false }, cal := ⟨false, true⟩, counters := { s.counters with coldSeq := s.counters.coldSeq + 1, calArm := s.counters.calArm + 1 }, wakeLatency := some d.wakeLatency, txbuf := { s.txbuf with head := some 0, tail := some 0 }, rxbuf := { s.rxbuf with head := some 0, tail := some 0 }, evt := s.evt ++ .cmd .sysInit :: (coldEvents ++ [.init .console, .init .rtc, .ledsOff, .unusedPinsLp, .pwrWrite .fullShutdownEn 0, .init .adc, .init .radioBus, .init .radioDbg, .timerArm s.params.calDuration, .handler .calTimer, .recordWakeLatency d.wakeLatency, .init .wdg]) }) ∧
  (∀ (s : State) (d : Draws) (rest : List Action), atRest s → s.lifecycle = .uninitialized → s.pwr.pwrSrc = .externalPower →
    s.agenda = cmdWrite s.params 0x00000001#32 :: .fsm d :: (coldSchedule d ++ (List.replicate 9 (.fsm d) ++ rest)) →
    runSteps 27 s = .next { s with agenda := rest, coldPath := true, lifecycle := .initialized, clk := coldStarted s.clk, periph := ⟨true, true, true, true, true, true, true, true, false⟩, counters := { s.counters with coldSeq := s.counters.coldSeq + 1 }, txbuf := { s.txbuf with head := some 0, tail := some 0 }, rxbuf := { s.rxbuf with head := some 0, tail := some 0 }, evt := s.evt ++ .cmd .sysInit :: (coldEvents ++ [.init .console, .init .rtc, .ledsOff, .unusedPinsLp, .init .adc, .init .radioBus, .init .radioDbg, .init .wdg]) })

/-- SYS_INIT's resume branch (R101, P1, P2, V-SI-3): a second SYS_INIT re-runs the resume clock and the rebuild, and
neither the cold sequence nor the calibration; LIFECYCLE stays. -/
def Obligations.SysInitResumes : Prop :=
  ∀ (s : State) (d : Draws) (rest : List Action), atRest s → s.lifecycle = .initialized →
    s.agenda = cmdWrite s.params 0x00000001#32 :: .fsm d :: (resumeSchedule d ++ (List.replicate 3 (.fsm d) ++ rest)) →
    runSteps 17 s = .next { s with agenda := rest, coldPath := false, clk := resumed s.clk, counters := { s.counters with resumeSeq := s.counters.resumeSeq + 1 }, periph := { s.periph with adcInit := true, radioBusInit := true, stopPinsLp := false, wdgInit := true }, evt := s.evt ++ .cmd .sysInit :: (resumeEvents ++ [.init .adc, .init .radioBus, .init .wdg]) }

/-! ### Termination on healthy hardware (R176, R287) -/

/-- R176, R287: on healthy hardware, with no reset and an FSM that keeps being scheduled, a resume phase that waits
for its flag is left: no spin of the resume sequence is endless. -/
def Obligations.ResumeWaitEndsOnHealthyHardware : Prop :=
  ∀ (act : Nat → Action) (st : Nat → State) (m : Nat),
    IsRun act st → HwHealthy act st → FsmFair act → (∀ n d, act n ≠ .reset d) → ClockInv (st m) →
    (st m).issued = true → (st m).seqPhase ∈ [Phase.crVos, .crHse, .crPll, .crSw] →
    ((st m).seqPhase = .crVos → (st m).clk.vosFull = true) → ((st m).seqPhase = .crHse → (st m).clk.hseOn = true) →
    ((st m).seqPhase = .crPll → (st m).clk.pllOn = true) →
    ∃ n, m < n ∧ (st n).issued = false ∧ (st n).seqPhase ≠ (st m).seqPhase
end

