-- ==== Sys2Proof/Laws/Decode.lean ====
section
/-! SUPPORT. Decoding and encoding: the bytes of a word give it back, and every command is well formed. -/

namespace Sys2Proof

theorem every_instr_wellFormed (i : Instr) : i.wellFormed = true := by
  cases i <;> simp [Instr.wellFormed]
  omega

/-- A command's fields pass the format's checks (R80). -/
theorem encodeFields_wellFormed (i : Instr) : (encodeFields i).wellFormed = true := by
  cases i <;> simp [encodeFields, Cmdw.wellFormed, Cmdw.opAssigned, Cmdw.tokenAllowed, Cmdw.reservedZero]

/-- Storing a word as bytes and reading it back loses no bit (R64). -/
@[simp] theorem wordOfBytes_bytesOfWord (w : Word) :
    wordOfBytes (byteOfWord w 0) (byteOfWord w 1) (byteOfWord w 2) (byteOfWord w 3) = w := by
  apply BitVec.eq_of_getLsbD_eq
  intro i hi
  simp only [wordOfBytes, byteOfWord, BitVec.getLsbD_or, BitVec.getLsbD_shiftLeft, BitVec.getLsbD_setWidth,
    BitVec.getLsbD_extractLsb']
  rcases (by omega : i < 8 ∨ (8 ≤ i ∧ i < 16) ∨ (16 ≤ i ∧ i < 24) ∨ (24 ≤ i)) with h | h | h | h
  · simp [h, hi, show i < 16 by omega, show i < 24 by omega]
  · simp [hi, show ¬ i < 8 by omega, show i - 8 < 8 by omega, show i - 8 < 32 by omega,
      show 8 + (i - 8) = i by omega, show i < 16 by omega, show i < 24 by omega]
  · simp [hi, show ¬ i < 8 by omega, show ¬ i - 8 < 8 by omega, show i - 16 < 8 by omega,
      show i - 16 < 32 by omega, show 16 + (i - 16) = i by omega, show ¬ i < 16 by omega, show i < 24 by omega]
  · simp [hi, show ¬ i < 8 by omega, show ¬ i - 8 < 8 by omega, show ¬ i - 16 < 8 by omega,
      show i - 24 < 8 by omega, show i - 24 < 32 by omega, show 24 + (i - 24) = i by omega,
      show ¬ i < 24 by omega]

/-- Decoding the stored bytes of a word is decoding the word. -/
theorem decode_bytesOfWord (w : Word) (rest : List Byte) :
    decode (bytesOfWord w ++ rest) =
      match decodeWord w with
      | .ok i => .ok (i, rest)
      | .error e => .error e := by
  simp only [bytesOfWord, List.cons_append, List.nil_append, decode, wordOfBytes_bytesOfWord]
  all_goals cases decodeWord w <;> rfl

/-- The fields of a word made of fields (R80). -/
@[simp] theorem splitWord_joinFields (c : Cmdw) : splitWord (joinFields c) = c := by
  obtain ⟨op, t, rsv⟩ := c
  simp only [splitWord, joinFields, opField, tokenField, reservedField, Cmdw.mk.injEq]
  refine ⟨?_, ?_, ?_⟩ <;> apply BitVec.eq_of_getLsbD_eq <;> intro i hi <;>
    simp only [BitVec.getLsbD_extractLsb', BitVec.getLsbD_setWidth, BitVec.getLsbD_append, hi]
  · simp [hi, show i < 32 by omega]
  · simp [show 8 + i < 32 by omega, show i < 1 by omega]
  · simp [show 9 + i < 32 by omega, show ¬ 9 + i < 8 by omega, show ¬ 9 + i - 8 < 1 by omega,
      show 9 + i - 8 - 1 = i by omega]

/-- A word is made of its fields (R80): no bit of it is outside them. -/
@[simp] theorem joinFields_splitWord (w : Word) : joinFields (splitWord w) = w := by
  apply BitVec.eq_of_getLsbD_eq
  intro i hi
  simp only [splitWord, joinFields, opField, tokenField, reservedField, BitVec.getLsbD_setWidth,
    BitVec.getLsbD_append, BitVec.getLsbD_extractLsb', hi]
  by_cases h : i < 8
  · simp [h]
  · by_cases k : i - 8 < 1
    · simp [h, k, show 8 + (i - 8) = i by omega]
    · simp [h, k, show i - 8 - 1 < 23 by omega, show 9 + (i - 8 - 1) = i by omega]

/-- CS_END's mask leaves the token out (R81): what it keeps is the opcode and the reserved bits. -/
theorem and_endMask (w : Word) :
    w &&& 0xFFFFFEFF#32 = 0x00000031#32 ↔ opField w = 0x31#8 ∧ reservedField w = 0#23 := by
  have hm : ∀ i, i < 32 → (0xFFFFFEFF#32).getLsbD i = decide (i ≠ 8) := by decide
  have hv : ∀ i, i < 32 → 8 ≤ i → (0x00000031#32).getLsbD i = false := by decide
  have hl : ∀ i, i < 8 → (0x00000031#32).getLsbD i = (0x31#8).getLsbD i := by decide
  constructor
  · intro h
    have bit : ∀ i, i < 32 → i ≠ 8 → w.getLsbD i = (0x00000031#32).getLsbD i := fun i hi h8 => by
      rw [← h, BitVec.getLsbD_and, hm i hi]
      simp [h8]
    constructor <;> apply BitVec.eq_of_getLsbD_eq <;> intro i hi <;>
      simp only [opField, reservedField, BitVec.getLsbD_extractLsb', hi, decide_true, Bool.true_and]
    · rw [show 0 + i = i by omega, bit i (by omega) (by omega), hl i hi]
    · rw [bit (9 + i) (by omega) (by omega), hv (9 + i) (by omega) (by omega), BitVec.getLsbD_zero]
  · rintro ⟨ho, hr⟩
    apply BitVec.eq_of_getLsbD_eq
    intro i hi
    rw [BitVec.getLsbD_and, hm i hi]
    by_cases h : i < 8
    · have e := congrArg (fun v => v.getLsbD i) ho
      simp only [opField, BitVec.getLsbD_extractLsb', h, decide_true, Bool.true_and, Nat.zero_add] at e
      simp [e, hl i h, show i ≠ 8 by omega]
    · rw [hv i hi (by omega)]
      by_cases k : i = 8
      · simp [k]
      · have e := congrArg (fun v => v.getLsbD (i - 9)) hr
        simp only [reservedField, BitVec.getLsbD_extractLsb', show i - 9 < 23 by omega, decide_true,
          Bool.true_and, show 9 + (i - 9) = i by omega, BitVec.getLsbD_zero] at e
        simp [e]

end Sys2Proof
end

