-- ==== Sys2Proof/Laws/State.lean ====
section
/-! SUPPORT. The state's small lemmas: for each shared update, what every field reads after it. -/

namespace Sys2Proof.Machine

/-! ### `log` -/

@[simp] theorem log_seqPhase (e : LogEvent) (s : State) : (log e s).seqPhase = s.seqPhase := rfl
@[simp] theorem log_curCmd (e : LogEvent) (s : State) : (log e s).curCmd = s.curCmd := rfl
@[simp] theorem log_issued (e : LogEvent) (s : State) : (log e s).issued = s.issued := rfl
@[simp] theorem log_coldPath (e : LogEvent) (s : State) : (log e s).coldPath = s.coldPath := rfl
@[simp] theorem log_lifecycle (e : LogEvent) (s : State) : (log e s).lifecycle = s.lifecycle := rfl
@[simp] theorem log_calState (e : LogEvent) (s : State) : (log e s).calState = s.calState := rfl
@[simp] theorem log_powerMode (e : LogEvent) (s : State) : (log e s).powerMode = s.powerMode := rfl
@[simp] theorem log_csActive (e : LogEvent) (s : State) : (log e s).csActive = s.csActive := rfl
@[simp] theorem log_ie (e : LogEvent) (s : State) : (log e s).ie = s.ie := rfl
@[simp] theorem log_csToken (e : LogEvent) (s : State) : (log e s).csToken = s.csToken := rfl
@[simp] theorem log_wuf (e : LogEvent) (s : State) : (log e s).wuf = s.wuf := rfl
@[simp] theorem log_fault (e : LogEvent) (s : State) : (log e s).fault = s.fault := rfl
@[simp] theorem log_clk (e : LogEvent) (s : State) : (log e s).clk = s.clk := rfl
@[simp] theorem log_pwr (e : LogEvent) (s : State) : (log e s).pwr = s.pwr := rfl
@[simp] theorem log_periph (e : LogEvent) (s : State) : (log e s).periph = s.periph := rfl
@[simp] theorem log_pending (e : LogEvent) (s : State) : (log e s).pending = s.pending := rfl
@[simp] theorem log_enable (e : LogEvent) (s : State) : (log e s).enable = s.enable := rfl
@[simp] theorem log_cal (e : LogEvent) (s : State) : (log e s).cal = s.cal := rfl
@[simp] theorem log_counters (e : LogEvent) (s : State) : (log e s).counters = s.counters := rfl
@[simp] theorem log_wakeLatency (e : LogEvent) (s : State) : (log e s).wakeLatency = s.wakeLatency := rfl
@[simp] theorem log_txbuf (e : LogEvent) (s : State) : (log e s).txbuf = s.txbuf := rfl
@[simp] theorem log_rxbuf (e : LogEvent) (s : State) : (log e s).rxbuf = s.rxbuf := rfl
@[simp] theorem log_evt (e : LogEvent) (s : State) : (log e s).evt = s.evt ++ [e] := rfl
@[simp] theorem log_params (e : LogEvent) (s : State) : (log e s).params = s.params := rfl
@[simp] theorem log_agenda (e : LogEvent) (s : State) : (log e s).agenda = s.agenda := rfl
@[simp] theorem log_readData (e : LogEvent) (s : State) : (log e s).readData = s.readData := rfl
@[simp] theorem log_tick (e : LogEvent) (s : State) : (log e s).tick = s.tick := rfl

/-! ### `goto` -/

@[simp] theorem goto_seqPhase (p : Phase) (s : State) : (goto p s).seqPhase = p := rfl
@[simp] theorem goto_curCmd (p : Phase) (s : State) : (goto p s).curCmd = s.curCmd := rfl
@[simp] theorem goto_issued (p : Phase) (s : State) : (goto p s).issued = s.issued := rfl
@[simp] theorem goto_coldPath (p : Phase) (s : State) : (goto p s).coldPath = s.coldPath := rfl
@[simp] theorem goto_lifecycle (p : Phase) (s : State) : (goto p s).lifecycle = s.lifecycle := rfl
@[simp] theorem goto_calState (p : Phase) (s : State) : (goto p s).calState = s.calState := rfl
@[simp] theorem goto_powerMode (p : Phase) (s : State) : (goto p s).powerMode = s.powerMode := rfl
@[simp] theorem goto_csActive (p : Phase) (s : State) : (goto p s).csActive = s.csActive := rfl
@[simp] theorem goto_ie (p : Phase) (s : State) : (goto p s).ie = s.ie := rfl
@[simp] theorem goto_csToken (p : Phase) (s : State) : (goto p s).csToken = s.csToken := rfl
@[simp] theorem goto_wuf (p : Phase) (s : State) : (goto p s).wuf = s.wuf := rfl
@[simp] theorem goto_fault (p : Phase) (s : State) : (goto p s).fault = s.fault := rfl
@[simp] theorem goto_clk (p : Phase) (s : State) : (goto p s).clk = s.clk := rfl
@[simp] theorem goto_pwr (p : Phase) (s : State) : (goto p s).pwr = s.pwr := rfl
@[simp] theorem goto_periph (p : Phase) (s : State) : (goto p s).periph = s.periph := rfl
@[simp] theorem goto_pending (p : Phase) (s : State) : (goto p s).pending = s.pending := rfl
@[simp] theorem goto_enable (p : Phase) (s : State) : (goto p s).enable = s.enable := rfl
@[simp] theorem goto_cal (p : Phase) (s : State) : (goto p s).cal = s.cal := rfl
@[simp] theorem goto_counters (p : Phase) (s : State) : (goto p s).counters = s.counters := rfl
@[simp] theorem goto_wakeLatency (p : Phase) (s : State) : (goto p s).wakeLatency = s.wakeLatency := rfl
@[simp] theorem goto_txbuf (p : Phase) (s : State) : (goto p s).txbuf = s.txbuf := rfl
@[simp] theorem goto_rxbuf (p : Phase) (s : State) : (goto p s).rxbuf = s.rxbuf := rfl
@[simp] theorem goto_evt (p : Phase) (s : State) : (goto p s).evt = s.evt := rfl
@[simp] theorem goto_params (p : Phase) (s : State) : (goto p s).params = s.params := rfl
@[simp] theorem goto_agenda (p : Phase) (s : State) : (goto p s).agenda = s.agenda := rfl
@[simp] theorem goto_readData (p : Phase) (s : State) : (goto p s).readData = s.readData := rfl
@[simp] theorem goto_tick (p : Phase) (s : State) : (goto p s).tick = s.tick := rfl

/-! ### `done` -/

@[simp] theorem done_seqPhase (s : State) : (done s).seqPhase = .idle := rfl
@[simp] theorem done_curCmd (s : State) : (done s).curCmd = none := rfl
@[simp] theorem done_issued (s : State) : (done s).issued = false := rfl
@[simp] theorem done_coldPath (s : State) : (done s).coldPath = s.coldPath := rfl
@[simp] theorem done_lifecycle (s : State) : (done s).lifecycle = s.lifecycle := rfl
@[simp] theorem done_calState (s : State) : (done s).calState = s.calState := rfl
@[simp] theorem done_powerMode (s : State) : (done s).powerMode = s.powerMode := rfl
@[simp] theorem done_csActive (s : State) : (done s).csActive = s.csActive := rfl
@[simp] theorem done_ie (s : State) : (done s).ie = s.ie := rfl
@[simp] theorem done_csToken (s : State) : (done s).csToken = s.csToken := rfl
@[simp] theorem done_wuf (s : State) : (done s).wuf = s.wuf := rfl
@[simp] theorem done_fault (s : State) : (done s).fault = s.fault := rfl
@[simp] theorem done_clk (s : State) : (done s).clk = s.clk := rfl
@[simp] theorem done_pwr (s : State) : (done s).pwr = s.pwr := rfl
@[simp] theorem done_periph (s : State) : (done s).periph = s.periph := rfl
@[simp] theorem done_pending (s : State) : (done s).pending = s.pending := rfl
@[simp] theorem done_enable (s : State) : (done s).enable = s.enable := rfl
@[simp] theorem done_cal (s : State) : (done s).cal = s.cal := rfl
@[simp] theorem done_counters (s : State) : (done s).counters = s.counters := rfl
@[simp] theorem done_wakeLatency (s : State) : (done s).wakeLatency = s.wakeLatency := rfl
@[simp] theorem done_txbuf (s : State) : (done s).txbuf = s.txbuf := rfl
@[simp] theorem done_rxbuf (s : State) : (done s).rxbuf = s.rxbuf := rfl
@[simp] theorem done_evt (s : State) : (done s).evt = s.evt := rfl
@[simp] theorem done_params (s : State) : (done s).params = s.params := rfl
@[simp] theorem done_agenda (s : State) : (done s).agenda = s.agenda := rfl
@[simp] theorem done_readData (s : State) : (done s).readData = s.readData := rfl
@[simp] theorem done_tick (s : State) : (done s).tick = s.tick := rfl

/-! ### `raiseFault` -/

@[simp] theorem raiseFault_seqPhase (c : FaultCode) (s : State) : (raiseFault c s).seqPhase = s.seqPhase := rfl
@[simp] theorem raiseFault_curCmd (c : FaultCode) (s : State) : (raiseFault c s).curCmd = s.curCmd := rfl
@[simp] theorem raiseFault_issued (c : FaultCode) (s : State) : (raiseFault c s).issued = s.issued := rfl
@[simp] theorem raiseFault_coldPath (c : FaultCode) (s : State) : (raiseFault c s).coldPath = s.coldPath := rfl
@[simp] theorem raiseFault_lifecycle (c : FaultCode) (s : State) : (raiseFault c s).lifecycle = s.lifecycle := rfl
@[simp] theorem raiseFault_calState (c : FaultCode) (s : State) : (raiseFault c s).calState = s.calState := rfl
@[simp] theorem raiseFault_powerMode (c : FaultCode) (s : State) : (raiseFault c s).powerMode = s.powerMode := rfl
@[simp] theorem raiseFault_csActive (c : FaultCode) (s : State) : (raiseFault c s).csActive = s.csActive := rfl
@[simp] theorem raiseFault_ie (c : FaultCode) (s : State) : (raiseFault c s).ie = s.ie := rfl
@[simp] theorem raiseFault_csToken (c : FaultCode) (s : State) : (raiseFault c s).csToken = s.csToken := rfl
@[simp] theorem raiseFault_wuf (c : FaultCode) (s : State) : (raiseFault c s).wuf = s.wuf := rfl
@[simp] theorem raiseFault_fault (c : FaultCode) (s : State) : (raiseFault c s).fault = s.fault.set c := rfl
@[simp] theorem raiseFault_clk (c : FaultCode) (s : State) : (raiseFault c s).clk = s.clk := rfl
@[simp] theorem raiseFault_pwr (c : FaultCode) (s : State) : (raiseFault c s).pwr = s.pwr := rfl
@[simp] theorem raiseFault_periph (c : FaultCode) (s : State) : (raiseFault c s).periph = s.periph := rfl
@[simp] theorem raiseFault_pending (c : FaultCode) (s : State) : (raiseFault c s).pending = s.pending := rfl
@[simp] theorem raiseFault_enable (c : FaultCode) (s : State) : (raiseFault c s).enable = s.enable := rfl
@[simp] theorem raiseFault_cal (c : FaultCode) (s : State) : (raiseFault c s).cal = s.cal := rfl
@[simp] theorem raiseFault_counters (c : FaultCode) (s : State) : (raiseFault c s).counters = s.counters := rfl
@[simp] theorem raiseFault_wakeLatency (c : FaultCode) (s : State) : (raiseFault c s).wakeLatency = s.wakeLatency := rfl
@[simp] theorem raiseFault_txbuf (c : FaultCode) (s : State) : (raiseFault c s).txbuf = s.txbuf := rfl
@[simp] theorem raiseFault_rxbuf (c : FaultCode) (s : State) : (raiseFault c s).rxbuf = s.rxbuf := rfl
@[simp] theorem raiseFault_evt (c : FaultCode) (s : State) : (raiseFault c s).evt = s.evt ++ [.fault c] := rfl
@[simp] theorem raiseFault_params (c : FaultCode) (s : State) : (raiseFault c s).params = s.params := rfl
@[simp] theorem raiseFault_agenda (c : FaultCode) (s : State) : (raiseFault c s).agenda = s.agenda := rfl
@[simp] theorem raiseFault_readData (c : FaultCode) (s : State) : (raiseFault c s).readData = s.readData := rfl
@[simp] theorem raiseFault_tick (c : FaultCode) (s : State) : (raiseFault c s).tick = s.tick := rfl

/-! ### `start` -/

@[simp] theorem start_seqPhase (op : SeqOp) (s : State) : (start op s).seqPhase = firstPhase op := rfl
@[simp] theorem start_curCmd (op : SeqOp) (s : State) : (start op s).curCmd = some op := rfl
@[simp] theorem start_issued (op : SeqOp) (s : State) : (start op s).issued = false := rfl
@[simp] theorem start_coldPath (op : SeqOp) (s : State) : (start op s).coldPath = s.coldPath := rfl
@[simp] theorem start_lifecycle (op : SeqOp) (s : State) : (start op s).lifecycle = s.lifecycle := rfl
@[simp] theorem start_calState (op : SeqOp) (s : State) : (start op s).calState = s.calState := rfl
@[simp] theorem start_powerMode (op : SeqOp) (s : State) : (start op s).powerMode = s.powerMode := rfl
@[simp] theorem start_csActive (op : SeqOp) (s : State) : (start op s).csActive = s.csActive := rfl
@[simp] theorem start_ie (op : SeqOp) (s : State) : (start op s).ie = s.ie := rfl
@[simp] theorem start_csToken (op : SeqOp) (s : State) : (start op s).csToken = s.csToken := rfl
@[simp] theorem start_wuf (op : SeqOp) (s : State) : (start op s).wuf = s.wuf := rfl
@[simp] theorem start_fault (op : SeqOp) (s : State) : (start op s).fault = s.fault := rfl
@[simp] theorem start_clk (op : SeqOp) (s : State) : (start op s).clk = s.clk := rfl
@[simp] theorem start_pwr (op : SeqOp) (s : State) : (start op s).pwr = s.pwr := rfl
@[simp] theorem start_periph (op : SeqOp) (s : State) : (start op s).periph = s.periph := rfl
@[simp] theorem start_pending (op : SeqOp) (s : State) : (start op s).pending = s.pending := rfl
@[simp] theorem start_enable (op : SeqOp) (s : State) : (start op s).enable = s.enable := rfl
@[simp] theorem start_cal (op : SeqOp) (s : State) : (start op s).cal = s.cal := rfl
@[simp] theorem start_counters (op : SeqOp) (s : State) : (start op s).counters = s.counters := rfl
@[simp] theorem start_wakeLatency (op : SeqOp) (s : State) : (start op s).wakeLatency = s.wakeLatency := rfl
@[simp] theorem start_txbuf (op : SeqOp) (s : State) : (start op s).txbuf = s.txbuf := rfl
@[simp] theorem start_rxbuf (op : SeqOp) (s : State) : (start op s).rxbuf = s.rxbuf := rfl
@[simp] theorem start_evt (op : SeqOp) (s : State) : (start op s).evt = s.evt ++ [.cmd op] := rfl
@[simp] theorem start_params (op : SeqOp) (s : State) : (start op s).params = s.params := rfl
@[simp] theorem start_agenda (op : SeqOp) (s : State) : (start op s).agenda = s.agenda := rfl
@[simp] theorem start_readData (op : SeqOp) (s : State) : (start op s).readData = s.readData := rfl
@[simp] theorem start_tick (op : SeqOp) (s : State) : (start op s).tick = s.tick := rfl

/-! ### The Begin and End effects leave every field alone but FAULT, IE, CS_TOKEN, CS_ACTIVE and EVT -/

@[simp] theorem csBegin_seqPhase (s : State) : (csBegin s).seqPhase = s.seqPhase := by unfold csBegin; split <;> rfl
@[simp] theorem csBegin_curCmd (s : State) : (csBegin s).curCmd = s.curCmd := by unfold csBegin; split <;> rfl
@[simp] theorem csBegin_issued (s : State) : (csBegin s).issued = s.issued := by unfold csBegin; split <;> rfl
@[simp] theorem csBegin_coldPath (s : State) : (csBegin s).coldPath = s.coldPath := by unfold csBegin; split <;> rfl
@[simp] theorem csBegin_lifecycle (s : State) : (csBegin s).lifecycle = s.lifecycle := by unfold csBegin; split <;> rfl
@[simp] theorem csBegin_calState (s : State) : (csBegin s).calState = s.calState := by unfold csBegin; split <;> rfl
@[simp] theorem csBegin_powerMode (s : State) : (csBegin s).powerMode = s.powerMode := by unfold csBegin; split <;> rfl
@[simp] theorem csBegin_wuf (s : State) : (csBegin s).wuf = s.wuf := by unfold csBegin; split <;> rfl
@[simp] theorem csBegin_clk (s : State) : (csBegin s).clk = s.clk := by unfold csBegin; split <;> rfl
@[simp] theorem csBegin_pwr (s : State) : (csBegin s).pwr = s.pwr := by unfold csBegin; split <;> rfl
@[simp] theorem csBegin_periph (s : State) : (csBegin s).periph = s.periph := by unfold csBegin; split <;> rfl
@[simp] theorem csBegin_pending (s : State) : (csBegin s).pending = s.pending := by unfold csBegin; split <;> rfl
@[simp] theorem csBegin_enable (s : State) : (csBegin s).enable = s.enable := by unfold csBegin; split <;> rfl
@[simp] theorem csBegin_cal (s : State) : (csBegin s).cal = s.cal := by unfold csBegin; split <;> rfl
@[simp] theorem csBegin_counters (s : State) : (csBegin s).counters = s.counters := by unfold csBegin; split <;> rfl
@[simp] theorem csBegin_wakeLatency (s : State) : (csBegin s).wakeLatency = s.wakeLatency := by unfold csBegin; split <;> rfl
@[simp] theorem csBegin_txbuf (s : State) : (csBegin s).txbuf = s.txbuf := by unfold csBegin; split <;> rfl
@[simp] theorem csBegin_rxbuf (s : State) : (csBegin s).rxbuf = s.rxbuf := by unfold csBegin; split <;> rfl
@[simp] theorem csBegin_params (s : State) : (csBegin s).params = s.params := by unfold csBegin; split <;> rfl
@[simp] theorem csBegin_agenda (s : State) : (csBegin s).agenda = s.agenda := by unfold csBegin; split <;> rfl
@[simp] theorem csBegin_readData (s : State) : (csBegin s).readData = s.readData := by unfold csBegin; split <;> rfl
@[simp] theorem csBegin_tick (s : State) : (csBegin s).tick = s.tick := by unfold csBegin; split <;> rfl

@[simp] theorem csEnd_seqPhase (t : Bool) (s : State) : (csEnd t s).seqPhase = s.seqPhase := by
  unfold csEnd; (repeat' split) <;> rfl
@[simp] theorem csEnd_curCmd (t : Bool) (s : State) : (csEnd t s).curCmd = s.curCmd := by
  unfold csEnd; (repeat' split) <;> rfl
@[simp] theorem csEnd_issued (t : Bool) (s : State) : (csEnd t s).issued = s.issued := by
  unfold csEnd; (repeat' split) <;> rfl
@[simp] theorem csEnd_coldPath (t : Bool) (s : State) : (csEnd t s).coldPath = s.coldPath := by
  unfold csEnd; (repeat' split) <;> rfl
@[simp] theorem csEnd_lifecycle (t : Bool) (s : State) : (csEnd t s).lifecycle = s.lifecycle := by
  unfold csEnd; (repeat' split) <;> rfl
@[simp] theorem csEnd_calState (t : Bool) (s : State) : (csEnd t s).calState = s.calState := by
  unfold csEnd; (repeat' split) <;> rfl
@[simp] theorem csEnd_powerMode (t : Bool) (s : State) : (csEnd t s).powerMode = s.powerMode := by
  unfold csEnd; (repeat' split) <;> rfl
@[simp] theorem csEnd_csToken (t : Bool) (s : State) : (csEnd t s).csToken = s.csToken := by
  unfold csEnd; (repeat' split) <;> rfl
@[simp] theorem csEnd_wuf (t : Bool) (s : State) : (csEnd t s).wuf = s.wuf := by
  unfold csEnd; (repeat' split) <;> rfl
@[simp] theorem csEnd_clk (t : Bool) (s : State) : (csEnd t s).clk = s.clk := by
  unfold csEnd; (repeat' split) <;> rfl
@[simp] theorem csEnd_pwr (t : Bool) (s : State) : (csEnd t s).pwr = s.pwr := by
  unfold csEnd; (repeat' split) <;> rfl
@[simp] theorem csEnd_periph (t : Bool) (s : State) : (csEnd t s).periph = s.periph := by
  unfold csEnd; (repeat' split) <;> rfl
@[simp] theorem csEnd_pending (t : Bool) (s : State) : (csEnd t s).pending = s.pending := by
  unfold csEnd; (repeat' split) <;> rfl
@[simp] theorem csEnd_enable (t : Bool) (s : State) : (csEnd t s).enable = s.enable := by
  unfold csEnd; (repeat' split) <;> rfl
@[simp] theorem csEnd_cal (t : Bool) (s : State) : (csEnd t s).cal = s.cal := by
  unfold csEnd; (repeat' split) <;> rfl
@[simp] theorem csEnd_counters (t : Bool) (s : State) : (csEnd t s).counters = s.counters := by
  unfold csEnd; (repeat' split) <;> rfl
@[simp] theorem csEnd_wakeLatency (t : Bool) (s : State) : (csEnd t s).wakeLatency = s.wakeLatency := by
  unfold csEnd; (repeat' split) <;> rfl
@[simp] theorem csEnd_txbuf (t : Bool) (s : State) : (csEnd t s).txbuf = s.txbuf := by
  unfold csEnd; (repeat' split) <;> rfl
@[simp] theorem csEnd_rxbuf (t : Bool) (s : State) : (csEnd t s).rxbuf = s.rxbuf := by
  unfold csEnd; (repeat' split) <;> rfl
@[simp] theorem csEnd_params (t : Bool) (s : State) : (csEnd t s).params = s.params := by
  unfold csEnd; (repeat' split) <;> rfl
@[simp] theorem csEnd_agenda (t : Bool) (s : State) : (csEnd t s).agenda = s.agenda := by
  unfold csEnd; (repeat' split) <;> rfl
@[simp] theorem csEnd_readData (t : Bool) (s : State) : (csEnd t s).readData = s.readData := by
  unfold csEnd; (repeat' split) <;> rfl
@[simp] theorem csEnd_tick (t : Bool) (s : State) : (csEnd t s).tick = s.tick := by
  unfold csEnd; (repeat' split) <;> rfl

/-! ### A handler's entry leaves every field alone but CAL, PENDING, ENABLE and EVT -/

@[simp] theorem handlerEntry_seqPhase (src : Source) (s : State) : (handlerEntry src s).seqPhase = s.seqPhase := by
  cases src <;> rfl
@[simp] theorem handlerEntry_curCmd (src : Source) (s : State) : (handlerEntry src s).curCmd = s.curCmd := by
  cases src <;> rfl
@[simp] theorem handlerEntry_issued (src : Source) (s : State) : (handlerEntry src s).issued = s.issued := by
  cases src <;> rfl
@[simp] theorem handlerEntry_coldPath (src : Source) (s : State) : (handlerEntry src s).coldPath = s.coldPath := by
  cases src <;> rfl
@[simp] theorem handlerEntry_lifecycle (src : Source) (s : State) : (handlerEntry src s).lifecycle = s.lifecycle := by
  cases src <;> rfl
@[simp] theorem handlerEntry_calState (src : Source) (s : State) : (handlerEntry src s).calState = s.calState := by
  cases src <;> rfl
@[simp] theorem handlerEntry_powerMode (src : Source) (s : State) : (handlerEntry src s).powerMode = s.powerMode := by
  cases src <;> rfl
@[simp] theorem handlerEntry_csActive (src : Source) (s : State) : (handlerEntry src s).csActive = s.csActive := by
  cases src <;> rfl
@[simp] theorem handlerEntry_ie (src : Source) (s : State) : (handlerEntry src s).ie = s.ie := by
  cases src <;> rfl
@[simp] theorem handlerEntry_csToken (src : Source) (s : State) : (handlerEntry src s).csToken = s.csToken := by
  cases src <;> rfl
@[simp] theorem handlerEntry_wuf (src : Source) (s : State) : (handlerEntry src s).wuf = s.wuf := by
  cases src <;> rfl
@[simp] theorem handlerEntry_fault (src : Source) (s : State) : (handlerEntry src s).fault = s.fault := by
  cases src <;> rfl
@[simp] theorem handlerEntry_clk (src : Source) (s : State) : (handlerEntry src s).clk = s.clk := by
  cases src <;> rfl
@[simp] theorem handlerEntry_pwr (src : Source) (s : State) : (handlerEntry src s).pwr = s.pwr := by
  cases src <;> rfl
@[simp] theorem handlerEntry_periph (src : Source) (s : State) : (handlerEntry src s).periph = s.periph := by
  cases src <;> rfl
@[simp] theorem handlerEntry_counters (src : Source) (s : State) : (handlerEntry src s).counters = s.counters := by
  cases src <;> rfl
@[simp] theorem handlerEntry_wakeLatency (src : Source) (s : State) : (handlerEntry src s).wakeLatency = s.wakeLatency := by
  cases src <;> rfl
@[simp] theorem handlerEntry_txbuf (src : Source) (s : State) : (handlerEntry src s).txbuf = s.txbuf := by
  cases src <;> rfl
@[simp] theorem handlerEntry_rxbuf (src : Source) (s : State) : (handlerEntry src s).rxbuf = s.rxbuf := by
  cases src <;> rfl
@[simp] theorem handlerEntry_params (src : Source) (s : State) : (handlerEntry src s).params = s.params := by
  cases src <;> rfl
@[simp] theorem handlerEntry_agenda (src : Source) (s : State) : (handlerEntry src s).agenda = s.agenda := by
  cases src <;> rfl
@[simp] theorem handlerEntry_readData (src : Source) (s : State) : (handlerEntry src s).readData = s.readData := by
  cases src <;> rfl
@[simp] theorem handlerEntry_tick (src : Source) (s : State) : (handlerEntry src s).tick = s.tick := by
  cases src <;> rfl

@[simp] theorem handlerEntry_evt (src : Source) (s : State) : (handlerEntry src s).evt = s.evt ++ [.handler src] := by
  cases src <;> rfl

end Sys2Proof.Machine
end

