-- ==== Sys2Proof/Laws/Effects.lean ====
section
/-! SUPPORT. What a command, an access, a handler and a step can do: one inversion lemma each, so that later
proofs cite these instead of unfolding the machine. -/

namespace Sys2Proof.Machine

/-! ### Commands -/

/-- A sequence command does one of three things (R84, R100). -/
theorem accept_cases (op : SeqOp) (s : State) :
    (busy s = true ∧ accept op s = raiseFault .cmdBusy s) ∨
    (s.seqPhase = .idle ∧ needsInitialized op = true ∧ s.lifecycle = .uninitialized ∧
      accept op s = raiseFault .stateError s) ∨
    (s.seqPhase = .idle ∧ (needsInitialized op = true → s.lifecycle = .initialized) ∧
      accept op s = start op s) := by
  unfold accept
  by_cases hb : busy s = true
  · exact .inl ⟨hb, if_pos hb⟩
  · have hi : s.seqPhase = .idle := by simpa [busy] using hb
    rw [if_neg hb]
    by_cases hn : needsInitialized op = true
    · cases hl : s.lifecycle <;> simp [hn, hi]
    · simp [hn, hi]

/-- Begin does one of two things (R210). -/
theorem csBegin_cases (s : State) :
    (s.csActive = true ∧ csBegin s = raiseFault .csNest s) ∨
    (s.csActive = false ∧
      csBegin s = { s with csToken := s.ie, ie := false, csActive := true, evt := s.evt ++ [.csBegin s.ie] }) := by
  unfold csBegin
  cases h : s.csActive <;> simp

/-- End does one of three things (R211). -/
theorem csEnd_cases (t : Bool) (s : State) :
    (s.csActive = false ∧ csEnd t s = raiseFault .csUnpaired s) ∨
    (s.csActive = true ∧ t ≠ s.csToken ∧ csEnd t s = raiseFault .csTokenMismatch s) ∨
    (s.csActive = true ∧ t = s.csToken ∧
      csEnd t s = { s with ie := t, csActive := false, evt := s.evt ++ [.csEnd t] }) := by
  unfold csEnd
  cases h : s.csActive <;> by_cases ht : t = s.csToken <;> simp [ht]

/-- The effects a legal or illegal command word can have on the block; none is a BUS_ERROR. -/
inductive CommandEffect (s : State) : State → Prop where
  | faulted (c : FaultCode) (onCommand : c ≠ .busError) : CommandEffect s (raiseFault c s)
  | started (op : SeqOp) (idle : s.seqPhase = .idle)
      (ready : needsInitialized op = true → s.lifecycle = .initialized) : CommandEffect s (start op s)
  | begun (closed : s.csActive = false) :
      CommandEffect s { s with csToken := s.ie, ie := false, csActive := true, evt := s.evt ++ [.csBegin s.ie] }
  | ended (t : Bool) (opened : s.csActive = true) (matching : t = s.csToken) :
      CommandEffect s { s with ie := t, csActive := false, evt := s.evt ++ [.csEnd t] }

theorem accept_effect (op : SeqOp) (s : State) : CommandEffect s (accept op s) := by
  rcases accept_cases op s with ⟨_, h⟩ | ⟨_, _, _, h⟩ | ⟨hi, hn, h⟩ <;> rw [h]
  · exact .faulted _ (by decide)
  · exact .faulted _ (by decide)
  · exact .started op hi hn

theorem csBegin_effect (s : State) : CommandEffect s (csBegin s) := by
  rcases csBegin_cases s with ⟨_, h⟩ | ⟨hc, h⟩ <;> rw [h]
  · exact .faulted _ (by decide)
  · exact .begun hc

theorem csEnd_effect (t : Bool) (s : State) : CommandEffect s (csEnd t s) := by
  rcases csEnd_cases t s with ⟨_, h⟩ | ⟨_, _, h⟩ | ⟨hc, ht, h⟩ <;> rw [h]
  · exact .faulted _ (by decide)
  · exact .faulted _ (by decide)
  · exact .ended t hc ht

/-- Every command answers a next state, which is one of the effects. -/
theorem exec_next (i : Instr) (s : State) : ∃ t, exec i s = .next t ∧ CommandEffect s t := by
  cases i <;>
    first
    | exact ⟨_, rfl, accept_effect _ s⟩
    | exact ⟨_, rfl, csBegin_effect s⟩
    | exact ⟨_, rfl, csEnd_effect _ s⟩

/-- Every word presented answers a next state, which is one of the effects. -/
theorem presentCommand_next (w : Word) (s : State) :
    ∃ t, presentCommand w s = .next t ∧ CommandEffect s t := by
  unfold presentCommand
  cases decodeWord w with
  | ok i => exact exec_next i s
  | error e => exact ⟨_, rfl, .faulted _ (by decide)⟩

/-! ### Accesses -/

/-- What one access can do to the state (R61, R62, R63). -/
inductive AccessEffect (s : State) : State → Prop where
  | reads (w : Word) (n : Nat) : AccessEffect s { s with readData := some w, tick := n }
  | badRead : AccessEffect s { raiseFault .busError s with readData := some 0#32 }
  | badWrite : AccessEffect s (raiseFault .busError s)
  | commands (t : State) (h : CommandEffect s t) : AccessEffect s t

theorem memWrite_next (addr : Word) (size : Nat) (w : Word) (s : State) :
    ∃ t, memWrite addr size w s = .next t ∧ AccessEffect s t := by
  unfold memWrite
  split
  · obtain ⟨t, h, e⟩ := presentCommand_next w s
    exact ⟨t, h, .commands t e⟩
  · exact ⟨_, rfl, .badWrite⟩

theorem runAccess_next (a : Access) (s : State) : ∃ t, runAccess a s = .next t ∧ AccessEffect s t := by
  cases a with
  | read addr size =>
    refine ⟨_, rfl, ?_⟩
    unfold memRead
    split
    · exact .reads _ _
    · exact .badRead
  | write addr size w => exact memWrite_next addr size w s

/-- Several accesses answer a next state, and keep whatever each single access keeps. -/
theorem runAccesses_next (P : State → Prop) (keep : ∀ s t, AccessEffect s t → P s → P t) :
    ∀ (body : List Access) (s : State), P s → ∃ t, runAccesses body s = .next t ∧ P t
  | [], s, h => ⟨s, rfl, h⟩
  | a :: rest, s, h => by
    obtain ⟨t, ht, e⟩ := runAccess_next a s
    obtain ⟨u, hu, pu⟩ := runAccesses_next P keep rest t (keep s t e h)
    exact ⟨u, by rw [runAccesses, ht]; exact hu, pu⟩

/-- An access a handler makes is an admitted read or presents its word (R238). -/
theorem allowedAccess_cases {a : Access} {s : State} (h : accessAllowed s.params a = true) :
    (∃ addr size w n, a = .read addr size ∧ runAccess a s = .next { s with readData := some w, tick := n }) ∨
    (∃ addr size w, a = .write addr size w ∧ runAccess a s = presentCommand w s) := by
  cases a with
  | read addr size =>
    obtain ⟨r, hr⟩ := Option.isSome_iff_exists.mp h
    exact .inl ⟨addr, size, _, _, rfl, by rw [runAccess, memRead, hr]⟩
  | write addr size w =>
    have hr : admittedReg s.params addr size = some .cmd := by simpa [accessAllowed] using h
    exact .inr ⟨addr, size, w, rfl, by rw [runAccess, memWrite, hr]⟩

/-- A body of admitted reads moves the read port and the draw counter, and nothing else (R62). -/
theorem runAccesses_reads (body : List Access) (s : State) (h : body.all (accessAllowed s.params) = true)
    (reads : commandWrites body = []) :
    ∃ rd n, (body = [] → rd = s.readData ∧ n = s.tick) ∧
      runAccesses body s = .next { s with readData := rd, tick := n } := by
  induction body generalizing s with
  | nil => exact ⟨s.readData, s.tick, fun _ => ⟨rfl, rfl⟩, rfl⟩
  | cons a rest ih =>
    rw [List.all_cons, Bool.and_eq_true] at h
    rcases allowedAccess_cases h.1 with ⟨addr, size, w, n, rfl, e⟩ | ⟨addr, size, w, rfl, _⟩
    · obtain ⟨rd, m, _, k⟩ := ih { s with readData := some w, tick := n } h.2 reads
      exact ⟨rd, m, ⟨nofun, by simp only [runAccesses, e]; exact k⟩⟩
    · cases reads

/-! ### Agents -/

/-- A handler step is its entry followed by its accesses, or nothing (R236). -/
theorem handlerStep_cases (src : Source) (body : List Access) (s : State) :
    (handlerEnabled s src = true ∧ bodyAllowed s.params src body = true ∧
      handlerStep src body s = runAccesses body (handlerEntry src s)) ∨
    ((handlerEnabled s src && bodyAllowed s.params src body) = false ∧ handlerStep src body s = .next s) := by
  unfold handlerStep
  cases h : handlerEnabled s src && bodyAllowed s.params src body
  · exact .inr ⟨rfl, rfl⟩
  · rw [Bool.and_eq_true] at h
    exact .inl ⟨h.1, h.2, rfl⟩

/-- The FSM's turn is its step, or nothing (R27). -/
theorem fsmTurn_cases (d : Draws) (s : State) :
    (fsmStep d s = none ∧ fsmTurn d s = s) ∨ fsmStep d s = some (fsmTurn d s) := by
  unfold fsmTurn
  cases h : fsmStep d s with
  | none => exact .inl ⟨rfl, rfl⟩
  | some t => exact .inr rfl

/-- A property of the block that no agent's step breaks is kept by every step of the machine. The five
hypotheses are the agents' steps; the first two say the model's own fields do not matter to it. -/
theorem step_keeps (P : State → Prop)
    (agenda : ∀ s a, P s → P { s with agenda := a })
    (ticks : ∀ s n, P s → P { s with tick := n })
    (access : ∀ s t, AccessEffect s t → P s → P t)
    (fsm : ∀ d s t, fsmStep d s = some t → P s → P t)
    (handler : ∀ src s, handlerEnabled s src = true → P s → P (handlerEntry src s))
    (env : ∀ e s, P s → P (envStep e s))
    (reset : ∀ d s, P s → P (resetWith d s))
    (s t : State) (h : step s = .next t) (hp : P s) : P t := by
  have turn : ∀ d u, P u → P (fsmTurn d u) := fun d u hu => by
    rcases fsmTurn_cases d u with ⟨_, e⟩ | e
    · rw [e]; exact hu
    · exact fsm d u _ e hu
  unfold step nextStep at h
  split at h
  · rename_i a rest _
    have hq : P { s with agenda := rest } := agenda s rest hp
    cases a with
    | main acc =>
      obtain ⟨u, hu, e⟩ := runAccess_next acc { s with agenda := rest }
      simp only [runAction, hu] at h
      cases h
      exact access _ _ e hq
    | fsm d => cases h; exact turn d _ hq
    | handler src body =>
      simp only [runAction] at h
      rcases handlerStep_cases src body { s with agenda := rest } with ⟨he, _, e⟩ | ⟨_, e⟩ <;> rw [e] at h
      · obtain ⟨u, hu, pu⟩ := runAccesses_next P access body _ (handler src _ he hq)
        rw [hu] at h
        cases h
        exact pu
      · cases h; exact hq
    | env e => cases h; exact env e _ hq
    | reset d => cases h; exact reset d _ hq
  · cases h
    exact turn _ _ (ticks s _ hp)

/-- Every step answers a next state. -/
theorem runAction_next (a : Action) (s : State) : ∃ t, runAction a s = .next t := by
  cases a with
  | main acc => obtain ⟨t, h, _⟩ := runAccess_next acc s; exact ⟨t, h⟩
  | fsm d => exact ⟨_, rfl⟩
  | handler src body =>
    rcases handlerStep_cases src body s with ⟨_, _, e⟩ | ⟨_, e⟩
    · obtain ⟨u, hu, _⟩ := runAccesses_next (fun _ => True) (fun _ _ _ _ => trivial) body (handlerEntry src s) trivial
      exact ⟨u, by rw [runAction, e, hu]⟩
    · exact ⟨s, e⟩
  | env e => exact ⟨_, rfl⟩
  | reset d => exact ⟨_, rfl⟩

/-- Everything a step of the machine can be: the head of the agenda taken by its agent, or, while the agenda is
empty, the FSM's turn with free draws. `u` is the state the agent's step is taken in. -/
inductive StepEffect (s : State) : State → Prop where
  | access (a : Access) (rest : List Action) (head : s.agenda = .main a :: rest) (t : State)
      (run : runAccess a { s with agenda := rest } = .next t) (effect : AccessEffect { s with agenda := rest } t) :
      StepEffect s t
  | fsm (d : Draws) (u t : State)
      (turn : (∃ rest, s.agenda = .fsm d :: rest ∧ u = { s with agenda := rest }) ∨
        (s.agenda = [] ∧ d = Config.freeDraws s.tick ∧ u = { s with tick := s.tick + 1 }))
      (run : fsmStep d u = some t) : StepEffect s t
  | waits (d : Draws) (u : State)
      (turn : (∃ rest, s.agenda = .fsm d :: rest ∧ u = { s with agenda := rest }) ∨
        (s.agenda = [] ∧ d = Config.freeDraws s.tick ∧ u = { s with tick := s.tick + 1 }))
      (run : fsmStep d u = none) : StepEffect s u
  | handler (src : Source) (body : List Access) (rest : List Action) (head : s.agenda = .handler src body :: rest)
      (t : State) (enabled : handlerEnabled { s with agenda := rest } src = true)
      (allowed : bodyAllowed s.params src body = true)
      (run : runAccesses body (handlerEntry src { s with agenda := rest }) = .next t) : StepEffect s t
  | noHandler (src : Source) (body : List Access) (rest : List Action) (head : s.agenda = .handler src body :: rest)
      (disabled : (handlerEnabled { s with agenda := rest } src && bodyAllowed s.params src body) = false) :
      StepEffect s { s with agenda := rest }
  | env (e : EnvAction) (rest : List Action) (head : s.agenda = .env e :: rest) :
      StepEffect s (envStep e { s with agenda := rest })
  | reset (d : ResetDraws) (rest : List Action) (head : s.agenda = .reset d :: rest) :
      StepEffect s (resetWith d { s with agenda := rest })

/-- A step of the machine is one of those. -/
theorem step_effect {s t : State} (h : step s = .next t) : StepEffect s t := by
  unfold step nextStep at h
  split at h
  · rename_i a rest head
    cases a with
    | main acc =>
      obtain ⟨u, hu, e⟩ := runAccess_next acc { s with agenda := rest }
      simp only [runAction, hu] at h
      cases h
      exact .access acc rest head _ hu e
    | fsm d =>
      cases h
      rcases fsmTurn_cases d { s with agenda := rest } with ⟨hn, e⟩ | e
      · rw [e]; exact .waits d _ (.inl ⟨rest, head, rfl⟩) hn
      · exact .fsm d _ _ (.inl ⟨rest, head, rfl⟩) e
    | handler src body =>
      simp only [runAction] at h
      rcases handlerStep_cases src body { s with agenda := rest } with ⟨he, ha, e⟩ | ⟨hd, e⟩ <;> rw [e] at h
      · exact .handler src body rest head t he ha h
      · cases h; exact .noHandler src body rest head hd
    | env e => cases h; exact .env e rest head
    | reset d => cases h; exact .reset d rest head
  · rename_i head
    cases h
    rcases fsmTurn_cases (Config.freeDraws s.tick) { s with tick := s.tick + 1 } with ⟨hn, e⟩ | e
    · rw [e]; exact .waits _ _ (.inr ⟨head, rfl, rfl⟩) hn
    · exact .fsm _ _ _ (.inr ⟨head, rfl, rfl⟩) e

/-- A step whose action heads the agenda is that action's. -/
theorem step_of_agenda {s : State} {a : Action} {rest : List Action} (h : s.agenda = a :: rest) :
    step s = runAction a { s with agenda := rest } := by
  simp [step, nextStep, h]

/-- The write of a command word to CMD presents it. -/
theorem runAction_cmdWrite (s : State) (w : Word) : runAction (cmdWrite s.params w) s = presentCommand w s := by
  simp [runAction, cmdWrite, runAccess, memWrite, admittedReg, offsetOf, regAt]

end Sys2Proof.Machine
end

