-- ==== Sys2Proof/Laws/Environment.lean ====
section
/-! SUPPORT. What a step of the environment can do, one constructor per change with the condition under which it
is made (R43, R44, R175, R235), and what the accesses of a context leave alone (R22, R72). -/

namespace Sys2Proof.Machine

/-! ### The environment -/

/-- The changes of the environment. -/
inductive EnvEffect (s : State) : State → Prop where
  | unchanged : EnvEffect s s
  | vosRdy (low : s.clk.vosRdy = false) (on : s.clk.vosFull = true) :
      EnvEffect s { s with clk := { s.clk with vosRdy := true } }
  | hseRdy (low : s.clk.hseRdy = false) (on : s.clk.hseOn = true) :
      EnvEffect s { s with clk := { s.clk with hseRdy := true } }
  | lseRdy (low : s.clk.lseRdy = false) (on : s.clk.lseOn = true) :
      EnvEffect s { s with clk := { s.clk with lseRdy := true } }
  | pllLock (low : s.clk.pllLock = false) (on : s.clk.pllOn = true) (source : s.clk.pllSrcHse = true)
      (ready : s.clk.hseRdy = true) : EnvEffect s { s with clk := { s.clk with pllLock := true } }
  | sws (may : s.clk.sw = .internal ∨ s.clk.pllLock = true) :
      EnvEffect s { s with clk := { s.clk with sws := s.clk.sw } }
  | pended (src : Source) (may : mayPend s src = true) : EnvEffect s (pend src s)
  | enables (src : Source) (b : Bool) : EnvEffect s { s with enable := s.enable.input src b }
  | pwrSrc (p : PowerSource) : EnvEffect s { s with pwr := { s.pwr with pwrSrc := p } }
  | txbuf (a : RingAction) : EnvEffect s { s with txbuf := s.txbuf.act s.params a }
  | rxbuf (a : RingAction) : EnvEffect s { s with rxbuf := s.rxbuf.act s.params a }

theorem envStep_effect (e : EnvAction) (s : State) : EnvEffect s (envStep e s) := by
  cases e with
  | raiseVosRdy =>
    simp only [envStep]
    split
    · rename_i h; simp [vosMayRise] at h; exact .vosRdy h.1 h.2
    · exact .unchanged
  | raiseHseRdy =>
    simp only [envStep]
    split
    · rename_i h; simp [hseMayRise] at h; exact .hseRdy h.1 h.2
    · exact .unchanged
  | raiseLseRdy =>
    simp only [envStep]
    split
    · rename_i h; simp [lseMayRise] at h; exact .lseRdy h.1 h.2
    · exact .unchanged
  | raisePllLock =>
    simp only [envStep]
    split
    · rename_i h; simp [lockMayRise] at h; exact .pllLock h.1.1.1 h.1.1.2 h.1.2 h.2
    · exact .unchanged
  | updateSws =>
    simp only [envStep]
    split
    · rename_i h; simp [swsMayFollow] at h; exact .sws h
    · exact .unchanged
  | setPending src =>
    simp only [envStep]
    split
    · rename_i h; exact .pended src h
    · exact .unchanged
  | setEnable src b => exact .enables src b
  | setPwrSrc p => exact .pwrSrc p
  | console r a =>
    cases r
    · exact .txbuf a
    · exact .rxbuf a

/-! ### Software -/

/-- The fields no access of the main or handler context writes, whatever it presents (R22, R72). -/
structure SoftwareFrame (s t : State) : Prop where
  clk : t.clk = s.clk
  pwr : t.pwr = s.pwr
  periph : t.periph = s.periph
  pending : t.pending = s.pending
  enable : t.enable = s.enable
  cal : t.cal = s.cal
  counters : t.counters = s.counters
  lifecycle : t.lifecycle = s.lifecycle
  calState : t.calState = s.calState
  powerMode : t.powerMode = s.powerMode
  coldPath : t.coldPath = s.coldPath
  wakeLatency : t.wakeLatency = s.wakeLatency
  wuf : t.wuf = s.wuf
  txbuf : t.txbuf = s.txbuf
  rxbuf : t.rxbuf = s.rxbuf
  params : t.params = s.params
  agenda : t.agenda = s.agenda

theorem SoftwareFrame.refl (s : State) : SoftwareFrame s s := by constructor <;> rfl

theorem SoftwareFrame.trans {s t u : State} (h : SoftwareFrame s t) (k : SoftwareFrame t u) : SoftwareFrame s u := by
  constructor
  · exact k.clk.trans h.clk
  · exact k.pwr.trans h.pwr
  · exact k.periph.trans h.periph
  · exact k.pending.trans h.pending
  · exact k.enable.trans h.enable
  · exact k.cal.trans h.cal
  · exact k.counters.trans h.counters
  · exact k.lifecycle.trans h.lifecycle
  · exact k.calState.trans h.calState
  · exact k.powerMode.trans h.powerMode
  · exact k.coldPath.trans h.coldPath
  · exact k.wakeLatency.trans h.wakeLatency
  · exact k.wuf.trans h.wuf
  · exact k.txbuf.trans h.txbuf
  · exact k.rxbuf.trans h.rxbuf
  · exact k.params.trans h.params
  · exact k.agenda.trans h.agenda

theorem access_frame {s t : State} (h : AccessEffect s t) : SoftwareFrame s t := by
  cases h with
  | reads => constructor <;> rfl
  | badRead => constructor <;> rfl
  | badWrite => constructor <;> rfl
  | commands _ e => cases e <;> constructor <;> rfl

/-- The accesses of one step together. -/
theorem runAccesses_frame {body : List Access} {s t : State} (h : runAccesses body s = .next t) :
    SoftwareFrame s t := by
  obtain ⟨u, hu, p⟩ :=
    runAccesses_next (SoftwareFrame s) (fun _ _ e k => k.trans (access_frame e)) body s (.refl s)
  rw [hu] at h
  cases h
  exact p

end Sys2Proof.Machine
end

