-- ==== Sys2Proof/Laws/Fields.lean ====
section
/-! SUPPORT. Reading a field out of a register word: a field placed at its own bits reads back, and one placed
elsewhere contributes nothing. A register word is a disjunction of placed fields (R24 to R41). -/

namespace Sys2Proof.Machine

/-- Bit `i` of a placed field. -/
theorem getLsbD_fieldAt {n : Nat} (m i : Nat) (v : BitVec n) :
    (fieldAt m v).getLsbD i = (decide (i < 32) && decide (m ≤ i) && v.getLsbD (i - m)) := by
  simp only [fieldAt, BitVec.getLsbD_shiftLeft, BitVec.getLsbD_setWidth]
  by_cases h : i < 32 <;> by_cases k : m ≤ i
  · simp [h, Nat.not_lt.2 k, k, show i - m < 32 by omega]
  · simp [show i < m by omega, k]
  · simp [h]
  · simp [h]

/-- A field reads back from its own bits. -/
theorem extract_fieldAt_same {n : Nat} (m : Nat) (v : BitVec n) (h : m + n ≤ 32) :
    (fieldAt m v).extractLsb' m n = v := by
  apply BitVec.eq_of_getLsbD_eq
  intro i hi
  rw [BitVec.getLsbD_extractLsb', getLsbD_fieldAt]
  simp [hi, show m + i < 32 by omega]

/-- A field placed elsewhere contributes nothing. -/
theorem extract_fieldAt_other {k : Nat} (m lo n : Nat) (v : BitVec k) (h : m + k ≤ lo ∨ lo + n ≤ m) :
    (fieldAt m v).extractLsb' lo n = 0#n := by
  apply BitVec.eq_of_getLsbD_eq
  intro i hi
  simp only [BitVec.getLsbD_extractLsb', getLsbD_fieldAt, hi, BitVec.getLsbD_zero, decide_true, Bool.true_and]
  rcases h with h | h
  · simp [BitVec.getLsbD_of_ge v (lo + i - m) (by omega)]
  · simp [show ¬ m ≤ lo + i by omega]

theorem extract_or (a b : Word) (lo n : Nat) :
    (a ||| b).extractLsb' lo n = a.extractLsb' lo n ||| b.extractLsb' lo n := by
  apply BitVec.eq_of_getLsbD_eq
  intro i hi
  simp [hi]

theorem extract_bitAt_same (m : Nat) (b : Bool) (h : m < 32) :
    (bitAt m b).extractLsb' m 1 = BitVec.ofBool b :=
  extract_fieldAt_same m _ h

theorem extract_bitAt_other (m lo n : Nat) (b : Bool) (h : m < lo ∨ lo + n ≤ m) :
    (bitAt m b).extractLsb' lo n = 0#n :=
  extract_fieldAt_other m lo n _ (by omega)

/-- Bit `i` of a placed bit. -/
theorem getLsbD_bitAt (m i : Nat) (b : Bool) (h : m < 32) :
    (bitAt m b).getLsbD i = (decide (i = m) && b) := by
  unfold bitAt
  rw [getLsbD_fieldAt]
  by_cases e : i = m
  · subst e; simp [h]
  · by_cases k : m ≤ i
    · simp [e, BitVec.getLsbD_of_ge (BitVec.ofBool b) (i - m) (by omega)]
    · simp [e, k]

theorem getElem_bitAt (m i : Nat) (b : Bool) (hi : i < 32) (h : m < 32) :
    (bitAt m b)[i] = (decide (i = m) && b) := by
  rw [← BitVec.getLsbD_eq_getElem, getLsbD_bitAt m i b h]

theorem getElem_fieldAt {n : Nat} (m i : Nat) (v : BitVec n) (hi : i < 32) :
    (fieldAt m v)[i] = (decide (m ≤ i) && v.getLsbD (i - m)) := by
  rw [← BitVec.getLsbD_eq_getElem, getLsbD_fieldAt]
  simp [hi]

end Sys2Proof.Machine
end

