-- ==== Sys2Proof/Laws/Fsm.lean ====
section
/-! SUPPORT. What a step of the FSM can do, phase by phase (R27, R28): one constructor per way a phase's rule can
take a step, with the condition under which it does. Later proofs cite `fsmStep_effect`. -/

namespace Sys2Proof.Machine

/-- The steps of the FSM. -/
inductive FsmEffect (d : Draws) (s : State) : State → Prop where
  | siEntryCold (at_phase : s.seqPhase = .siEntry) (cold : s.lifecycle = .uninitialized) :
      FsmEffect d s { s with coldPath := true, seqPhase := .ccVos }
  | siEntryResume (at_phase : s.seqPhase = .siEntry) (warm : s.lifecycle = .initialized) :
      FsmEffect d s { s with coldPath := false, seqPhase := .crVos }
  | ccSystickInit (at_phase : s.seqPhase = .ccSystick) (cmd : s.curCmd = some .sysInit) :
      FsmEffect d s { s with clk := { s.clk with systickOn := true }, evt := s.evt ++ [.clkWrite .systickOn 1], seqPhase := .siConsole }
  | ccSystickDone (at_phase : s.seqPhase = .ccSystick) (cmd : s.curCmd ≠ some .sysInit) :
      FsmEffect d s (done { s with clk := { s.clk with systickOn := true }, evt := s.evt ++ [.clkWrite .systickOn 1] })
  | siConsole (at_phase : s.seqPhase = .siConsole) : FsmEffect d s (siConsole s)
  | siRtc (at_phase : s.seqPhase = .siRtc) : FsmEffect d s (siRtc s)
  | siLeds (at_phase : s.seqPhase = .siLeds) : FsmEffect d s (siLeds s)
  | siPins (at_phase : s.seqPhase = .siPins) : FsmEffect d s (siPins s)
  | siLppolicyBattery (at_phase : s.seqPhase = .siLppolicy) (src : s.pwr.pwrSrc = .batteryPower) :
      FsmEffect d s { s with pwr := { s.pwr with fullShutdownEn := false }, evt := s.evt ++ [.pwrWrite .fullShutdownEn 0], seqPhase := .siAdc }
  | siLppolicyExternal (at_phase : s.seqPhase = .siLppolicy) (src : s.pwr.pwrSrc = .externalPower) :
      FsmEffect d s { s with seqPhase := .siAdc }
  | siAdc (at_phase : s.seqPhase = .siAdc) : FsmEffect d s (siAdc s)
  | siRadioFirst (at_phase : s.seqPhase = .siRadio) (cmd : s.curCmd = some .sysInit) (cold : s.coldPath = true) :
      FsmEffect d s { s with periph := { s.periph with radioBusInit := true, stopPinsLp := false }, evt := s.evt ++ [.init .radioBus], seqPhase := .siFirstboot }
  | siRadioAgain (at_phase : s.seqPhase = .siRadio) (other : s.curCmd = some .sysInit → s.coldPath = false) :
      FsmEffect d s { s with periph := { s.periph with radioBusInit := true, stopPinsLp := false }, evt := s.evt ++ [.init .radioBus], seqPhase := .siWdg }
  | siFirstbootBattery (at_phase : s.seqPhase = .siFirstboot) (src : s.pwr.pwrSrc = .batteryPower) :
      FsmEffect d s { s with lifecycle := .initialized, periph := { s.periph with radioDbgInit := true }, evt := s.evt ++ [.init .radioDbg], seqPhase := .calCheck }
  | siFirstbootExternal (at_phase : s.seqPhase = .siFirstboot) (src : s.pwr.pwrSrc = .externalPower) :
      FsmEffect d s { s with lifecycle := .initialized, periph := { s.periph with radioDbgInit := true }, evt := s.evt ++ [.init .radioDbg], seqPhase := .siWdg }
  | calCheckSkipInit (at_phase : s.seqPhase = .calCheck) (cal : s.calState = .calibrated) (cmd : s.curCmd = some .sysInit) :
      FsmEffect d s { s with seqPhase := .siWdg }
  | calCheckSkipDone (at_phase : s.seqPhase = .calCheck) (cal : s.calState = .calibrated) (cmd : s.curCmd ≠ some .sysInit) :
      FsmEffect d s (done s)
  | calCheckArm (at_phase : s.seqPhase = .calCheck) (cal : s.calState ≠ .calibrated) :
      FsmEffect d s { s with seqPhase := .calArm }
  | calArm (at_phase : s.seqPhase = .calArm) : FsmEffect d s (calArm s)
  | siWdgExit (at_phase : s.seqPhase = .siWdg) (cmd : s.curCmd = some .exitStop) :
      FsmEffect d s { s with periph := { s.periph with wdgInit := true }, evt := s.evt ++ [.init .wdg], seqPhase := .xsCsEnd }
  | siWdgDone (at_phase : s.seqPhase = .siWdg) (cmd : s.curCmd ≠ some .exitStop) :
      FsmEffect d s (done { s with periph := { s.periph with wdgInit := true }, evt := s.evt ++ [.init .wdg] })
  | esCsBegin (at_phase : s.seqPhase = .esCsBegin) : FsmEffect d s (esCsBegin s)
  | esRadioDeinit (at_phase : s.seqPhase = .esRadioDeinit) : FsmEffect d s (esRadioDeinit s)
  | esAdcDeinit (at_phase : s.seqPhase = .esAdcDeinit) : FsmEffect d s (esAdcDeinit s)
  | esPins (at_phase : s.seqPhase = .esPins) : FsmEffect d s (esPins s)
  | esCsEnd (at_phase : s.seqPhase = .esCsEnd) : FsmEffect d s (esCsEnd s)
  | esBorOff (at_phase : s.seqPhase = .esBorOff) : FsmEffect d s (esBorOff s)
  | esClrWuf (at_phase : s.seqPhase = .esClrWuf) : FsmEffect d s (esClrWuf s)
  | esUlpFwu (at_phase : s.seqPhase = .esUlpFwu) : FsmEffect d s (esUlpFwu s)
  | xsCsBegin (at_phase : s.seqPhase = .xsCsBegin) : FsmEffect d s (xsCsBegin s)
  | xsCsEnd (at_phase : s.seqPhase = .xsCsEnd) : FsmEffect d s (xsCsEnd s)
  | calRecordInit (at_phase : s.seqPhase = .calRecord) (cmd : s.curCmd = some .sysInit) :
      FsmEffect d s { s with wakeLatency := some d.wakeLatency, evt := s.evt ++ [.recordWakeLatency d.wakeLatency], calState := .calibrated, seqPhase := .siWdg }
  | calRecordDone (at_phase : s.seqPhase = .calRecord) (cmd : s.curCmd ≠ some .sysInit) :
      FsmEffect d s (done { s with wakeLatency := some d.wakeLatency, evt := s.evt ++ [.recordWakeLatency d.wakeLatency], calState := .calibrated })
  | crSwAdc (at_phase : s.seqPhase = .crSw) (issued : s.issued = true) (cond : s.clk.sws = .pll) (cmd : s.curCmd = some .sysInit ∨ s.curCmd = some .exitStop) :
      FsmEffect d s { s with evt := s.evt ++ [.observed .swsPll], issued := false, seqPhase := .siAdc }
  | crSwDone (at_phase : s.seqPhase = .crSw) (issued : s.issued = true) (cond : s.clk.sws = .pll) (cmd : ¬(s.curCmd = some .sysInit ∨ s.curCmd = some .exitStop)) :
      FsmEffect d s (done { s with evt := s.evt ++ [.observed .swsPll], issued := false })
  | ccVosIssue (at_phase : s.seqPhase = .ccVos) (fresh : s.issued = false) : FsmEffect d s (ccVosIssue s)
  | ccOscIssue (at_phase : s.seqPhase = .ccOsc) (fresh : s.issued = false) : FsmEffect d s (ccOscIssue s)
  | ccPllIssue (at_phase : s.seqPhase = .ccPll) (fresh : s.issued = false) : FsmEffect d s (pllIssue s)
  | ccSysclkIssue (at_phase : s.seqPhase = .ccSysclk) (fresh : s.issued = false) : FsmEffect d s (ccSysclkIssue s)
  | ccRtcclkIssue (at_phase : s.seqPhase = .ccRtcclk) (fresh : s.issued = false) : FsmEffect d s (ccRtcclkIssue s)
  | crVosIssue (at_phase : s.seqPhase = .crVos) (fresh : s.issued = false) : FsmEffect d s (crVosIssue s)
  | crHseIssue (at_phase : s.seqPhase = .crHse) (fresh : s.issued = false) : FsmEffect d s (crHseIssue s)
  | crPllIssue (at_phase : s.seqPhase = .crPll) (fresh : s.issued = false) : FsmEffect d s (pllIssue s)
  | crSwIssue (at_phase : s.seqPhase = .crSw) (fresh : s.issued = false) : FsmEffect d s (crSwIssue s)
  | esHaltIssue (at_phase : s.seqPhase = .esHalt) (fresh : s.issued = false) : FsmEffect d s (esHaltIssue s)
  | slHaltIssue (at_phase : s.seqPhase = .slHalt) (fresh : s.issued = false) : FsmEffect d s (slHaltIssue s)
  | ccVosFail (at_phase : s.seqPhase = .ccVos) (issued : s.issued = true) (st : d.status = some .fail) :
      FsmEffect d s (coldFail 1 s)
  | ccVosOk (at_phase : s.seqPhase = .ccVos) (issued : s.issued = true) (st : d.status = some .ok) (cond : s.clk.vosRdy = true) :
      FsmEffect d s (coldOk 1 [.observed .vosRdy] .ccOsc s)
  | ccOscFail (at_phase : s.seqPhase = .ccOsc) (issued : s.issued = true) (st : d.status = some .fail) :
      FsmEffect d s (coldFail 2 s)
  | ccOscOk (at_phase : s.seqPhase = .ccOsc) (issued : s.issued = true) (st : d.status = some .ok) (cond : s.clk.hseRdy = true ∧ s.clk.lseRdy = true) :
      FsmEffect d s (coldOk 2 [.observed .hseLseRdy] .ccPll s)
  | ccPllFail (at_phase : s.seqPhase = .ccPll) (issued : s.issued = true) (st : d.status = some .fail) :
      FsmEffect d s (coldFail 3 s)
  | ccPllOk (at_phase : s.seqPhase = .ccPll) (issued : s.issued = true) (st : d.status = some .ok) (cond : s.clk.pllLock = true) :
      FsmEffect d s (coldOk 3 [.observed .pllLock] .ccSysclk s)
  | ccSysclkFail (at_phase : s.seqPhase = .ccSysclk) (issued : s.issued = true) (st : d.status = some .fail) :
      FsmEffect d s (coldFail 4 s)
  | ccSysclkOk (at_phase : s.seqPhase = .ccSysclk) (issued : s.issued = true) (st : d.status = some .ok) (cond : s.clk.sws = .pll) :
      FsmEffect d s (coldOk 4 [.observed .swsPll] .ccRtcclk s)
  | ccRtcclkFail (at_phase : s.seqPhase = .ccRtcclk) (issued : s.issued = true) (st : d.status = some .fail) :
      FsmEffect d s (coldFail 5 s)
  | ccRtcclkOk (at_phase : s.seqPhase = .ccRtcclk) (issued : s.issued = true) (st : d.status = some .ok) (cond : True) :
      FsmEffect d s (coldOk 5 [] .ccSystick s)
  | crVosDone (at_phase : s.seqPhase = .crVos) (issued : s.issued = true) (cond : s.clk.vosRdy = true) :
      FsmEffect d s { s with evt := s.evt ++ [.observed .vosRdy], issued := false, seqPhase := .crHse }
  | crHseDone (at_phase : s.seqPhase = .crHse) (issued : s.issued = true) (cond : s.clk.hseRdy = true) :
      FsmEffect d s { s with evt := s.evt ++ [.observed .hseRdy], issued := false, seqPhase := .crPll }
  | crPllDone (at_phase : s.seqPhase = .crPll) (issued : s.issued = true) (cond : s.clk.pllLock = true) :
      FsmEffect d s { s with evt := s.evt ++ [.observed .pllLock], issued := false, seqPhase := .crSw }
  | calWaitDone (at_phase : s.seqPhase = .calWait) (cond : s.cal.calDone = true) : FsmEffect d s (goto .calRecord s)
  | stopWake (src : Source) (at_phase : s.seqPhase = .esHalt) (issued : s.issued = true)
      (cond : wakeSource stopSources d.wakeSrc s = some src) : FsmEffect d s (stopWakeStep src d.wakeClk s)
  | sleepWake (src : Source) (at_phase : s.seqPhase = .slHalt) (issued : s.issued = true)
      (cond : wakeSource sleepSources d.wakeSrc s = some src) : FsmEffect d s (sleepWakeStep src s)

theorem coldComplete_cases {k : Nat} {c : Bool} {seen : List LogEvent} {succ : Phase} {d : Draws} {s t : State}
    (h : coldComplete k c seen succ d s = some t) :
    (d.status = some .fail ∧ t = coldFail k s) ∨ (d.status = some .ok ∧ c = true ∧ t = coldOk k seen succ s) := by
  unfold coldComplete at h
  split at h
  · exact .inl ⟨‹_›, by simpa using h.symm⟩
  · split at h
    · exact .inr ⟨‹_›, ‹_›, by simpa using h.symm⟩
    · cases h
  · cases h

theorem resumeComplete_cases {c : Bool} {seen : Cond} {succ : Phase} {s t : State}
    (h : resumeComplete c seen succ s = some t) :
    c = true ∧ t = { s with evt := s.evt ++ [.observed seen], issued := false, seqPhase := succ } := by
  unfold resumeComplete at h
  split at h
  · exact ⟨‹_›, by simpa using h.symm⟩
  · cases h

/-- The drawn or the first qualifying source qualifies (R129, R131). -/
theorem wakeSource_wakes {l : List Source} {x src : Source} {s : State} (h : wakeSource l x s = some src) :
    src ∈ l ∧ wakes s src = true := by
  unfold wakeSource at h
  split at h
  · rename_i hc
    rw [Bool.and_eq_true] at hc
    cases h
    exact ⟨by simpa using hc.1, hc.2⟩
  · exact ⟨List.mem_of_find?_eq_some h, List.find?_some h⟩

/-- Some source wakes exactly when the wake condition holds (R240). -/
theorem wakeSource_isSome (l : List Source) (x : Source) (s : State) :
    (wakeSource l x s).isSome = l.any (wakes s) := by
  unfold wakeSource
  split
  · rename_i hc
    rw [Bool.and_eq_true] at hc
    have : x ∈ l := by simpa using hc.1
    simp only [Option.isSome_some]
    exact (List.any_eq_true.2 ⟨x, this, hc.2⟩).symm
  · rw [Bool.eq_iff_iff]
    simp [List.find?_isSome, List.any_eq_true]

/-! ### The phases that branch -/

theorem siEntry_effect (d : Draws) (s : State) (hp : s.seqPhase = .siEntry) : FsmEffect d s (siEntry s) := by
  cases hl : s.lifecycle
  · simpa [siEntry, hl] using FsmEffect.siEntryCold (d := d) hp hl
  · simpa [siEntry, hl] using FsmEffect.siEntryResume (d := d) hp hl

theorem ccSystick_effect (d : Draws) (s : State) (hp : s.seqPhase = .ccSystick) : FsmEffect d s (ccSystick s) := by
  by_cases hc : s.curCmd = some .sysInit
  · simpa [ccSystick, hc, goto] using FsmEffect.ccSystickInit (d := d) hp hc
  · simpa [ccSystick, hc] using FsmEffect.ccSystickDone (d := d) hp hc

theorem siLppolicy_effect (d : Draws) (s : State) (hp : s.seqPhase = .siLppolicy) : FsmEffect d s (siLppolicy s) := by
  cases hs : s.pwr.pwrSrc
  · simpa [siLppolicy, isBattery, hs] using FsmEffect.siLppolicyExternal (d := d) hp hs
  · simpa [siLppolicy, isBattery, hs] using FsmEffect.siLppolicyBattery (d := d) hp hs

theorem siRadio_effect (d : Draws) (s : State) (hp : s.seqPhase = .siRadio) : FsmEffect d s (siRadio s) := by
  unfold siRadio
  split
  · exact .siRadioFirst hp (by simp_all) (by simp_all)
  · exact .siRadioAgain hp (by simp_all)

theorem siFirstboot_effect (d : Draws) (s : State) (hp : s.seqPhase = .siFirstboot) :
    FsmEffect d s (siFirstboot s) := by
  cases hs : s.pwr.pwrSrc
  · simpa [siFirstboot, isBattery, hs] using FsmEffect.siFirstbootExternal (d := d) hp hs
  · simpa [siFirstboot, isBattery, hs] using FsmEffect.siFirstbootBattery (d := d) hp hs

theorem calCheck_effect (d : Draws) (s : State) (hp : s.seqPhase = .calCheck) : FsmEffect d s (calCheck s) := by
  unfold calCheck calReturn
  (repeat' split)
  · exact .calCheckSkipInit hp ‹_› ‹_›
  · exact .calCheckSkipDone hp ‹_› ‹_›
  · exact .calCheckArm hp ‹_›

theorem siWdg_effect (d : Draws) (s : State) (hp : s.seqPhase = .siWdg) : FsmEffect d s (siWdg s) := by
  unfold siWdg
  split
  · exact .siWdgExit hp ‹_›
  · exact .siWdgDone hp ‹_›

theorem calRecord_effect (d : Draws) (s : State) (hp : s.seqPhase = .calRecord) : FsmEffect d s (calRecord d s) := by
  unfold calRecord calReturn
  split
  · exact .calRecordInit hp ‹_›
  · exact .calRecordDone hp ‹_›

theorem crSwDone_effect (d : Draws) (s : State) (hp : s.seqPhase = .crSw) (hi : s.issued = true)
    (hc : s.clk.sws = .pll) : FsmEffect d s (crSwDone s) := by
  unfold crSwDone
  split
  · exact .crSwAdc hp hi hc ‹_›
  · exact .crSwDone hp hi hc ‹_›

theorem fsmStep_effect {d : Draws} {s t : State} (h : fsmStep d s = some t) : FsmEffect d s t := by
  cases hp : s.seqPhase <;> simp only [fsmStep, hp, Option.some.injEq, reduceCtorEq] at h
  case siEntry => subst h; exact siEntry_effect d s hp
  case ccVos =>
    unfold ccVos at h
    split at h
    · rcases coldComplete_cases h with ⟨hs, e⟩ | ⟨hs, hc, e⟩ <;> rw [e]
      · exact .ccVosFail hp ‹_› hs
      · exact .ccVosOk hp ‹_› hs hc
    · cases h; exact .ccVosIssue hp (by simpa using ‹¬_ = true›)
  case ccOsc =>
    unfold ccOsc at h
    split at h
    · rcases coldComplete_cases h with ⟨hs, e⟩ | ⟨hs, hc, e⟩ <;> rw [e]
      · exact .ccOscFail hp ‹_› hs
      · exact .ccOscOk hp ‹_› hs (by simpa using hc)
    · cases h; exact .ccOscIssue hp (by simpa using ‹¬_ = true›)
  case ccPll =>
    unfold ccPll at h
    split at h
    · rcases coldComplete_cases h with ⟨hs, e⟩ | ⟨hs, hc, e⟩ <;> rw [e]
      · exact .ccPllFail hp ‹_› hs
      · exact .ccPllOk hp ‹_› hs hc
    · cases h; exact .ccPllIssue hp (by simpa using ‹¬_ = true›)
  case ccSysclk =>
    unfold ccSysclk at h
    split at h
    · rcases coldComplete_cases h with ⟨hs, e⟩ | ⟨hs, hc, e⟩ <;> rw [e]
      · exact .ccSysclkFail hp ‹_› hs
      · exact .ccSysclkOk hp ‹_› hs (by simpa using hc)
    · cases h; exact .ccSysclkIssue hp (by simpa using ‹¬_ = true›)
  case ccRtcclk =>
    unfold ccRtcclk at h
    split at h
    · rcases coldComplete_cases h with ⟨hs, e⟩ | ⟨hs, hc, e⟩ <;> rw [e]
      · exact .ccRtcclkFail hp ‹_› hs
      · exact .ccRtcclkOk hp ‹_› hs trivial
    · cases h; exact .ccRtcclkIssue hp (by simpa using ‹¬_ = true›)
  case ccSystick => subst h; exact ccSystick_effect d s hp
  case crVos =>
    unfold crVos at h
    split at h
    · obtain ⟨hc, e⟩ := resumeComplete_cases h
      rw [e]; exact .crVosDone hp ‹_› hc
    · cases h; exact .crVosIssue hp (by simpa using ‹¬_ = true›)
  case crHse =>
    unfold crHse at h
    split at h
    · obtain ⟨hc, e⟩ := resumeComplete_cases h
      rw [e]; exact .crHseDone hp ‹_› hc
    · cases h; exact .crHseIssue hp (by simpa using ‹¬_ = true›)
  case crPll =>
    unfold crPll at h
    split at h
    · obtain ⟨hc, e⟩ := resumeComplete_cases h
      rw [e]; exact .crPllDone hp ‹_› hc
    · cases h; exact .crPllIssue hp (by simpa using ‹¬_ = true›)
  case crSw =>
    unfold crSw at h
    split at h
    · split at h
      · cases h; exact crSwDone_effect d s hp ‹_› (by simpa using ‹(s.clk.sws == .pll) = true›)
      · cases h
    · cases h; exact .crSwIssue hp (by simpa using ‹¬_ = true›)
  case siConsole => subst h; exact .siConsole hp
  case siRtc => subst h; exact .siRtc hp
  case siLeds => subst h; exact .siLeds hp
  case siPins => subst h; exact .siPins hp
  case siLppolicy => subst h; exact siLppolicy_effect d s hp
  case siAdc => subst h; exact .siAdc hp
  case siRadio => subst h; exact siRadio_effect d s hp
  case siFirstboot => subst h; exact siFirstboot_effect d s hp
  case calCheck => subst h; exact calCheck_effect d s hp
  case calArm => subst h; exact .calArm hp
  case calWait =>
    unfold calWait at h
    split at h
    · cases h; exact .calWaitDone hp ‹_›
    · cases h
  case calRecord => subst h; exact calRecord_effect d s hp
  case siWdg => subst h; exact siWdg_effect d s hp
  case esCsBegin => subst h; exact .esCsBegin hp
  case esRadioDeinit => subst h; exact .esRadioDeinit hp
  case esAdcDeinit => subst h; exact .esAdcDeinit hp
  case esPins => subst h; exact .esPins hp
  case esCsEnd => subst h; exact .esCsEnd hp
  case esBorOff => subst h; exact .esBorOff hp
  case esClrWuf => subst h; exact .esClrWuf hp
  case esUlpFwu => subst h; exact .esUlpFwu hp
  case esHalt =>
    unfold esHalt at h
    split at h
    · obtain ⟨src, hc, e⟩ := Option.map_eq_some_iff.1 h
      rw [← e]; exact .stopWake src hp ‹_› hc
    · cases h; exact .esHaltIssue hp (by simpa using ‹¬_ = true›)
  case xsCsBegin => subst h; exact .xsCsBegin hp
  case xsCsEnd => subst h; exact .xsCsEnd hp
  case slHalt =>
    unfold slHalt at h
    split at h
    · obtain ⟨src, hc, e⟩ := Option.map_eq_some_iff.1 h
      rw [← e]; exact .sleepWake src hp ‹_› hc
    · cases h; exact .slHaltIssue hp (by simpa using ‹¬_ = true›)

end Sys2Proof.Machine
end

