-- ==== Sys2Proof/Laws/Flags.lean ====
section
/-! SUPPORT. The derived flags and the drawn values: what each says, once. -/

namespace Sys2Proof.Machine

@[simp] theorem busy_eq_true (s : State) : busy s = true ↔ s.seqPhase ≠ .idle := by simp [busy]

@[simp] theorem busy_eq_false (s : State) : busy s = false ↔ s.seqPhase = .idle := by simp [busy]

@[simp] theorem isFatal_eq_true (s : State) : isFatal s = true ↔ s.seqPhase = .fatal := by simp [isFatal]

theorem sourceOf_eq_pll (b : Bool) : sourceOf b = .pll ↔ b = true := by cases b <;> simp [sourceOf]

/-- CLOCK_STATE = Running, as R33 has it. -/
theorem clockState_running_iff (c : ClkCtrl) :
    c.clockState = .running ↔ c.hseOn = true ∧ c.hseRdy = true ∧ c.pllOn = true ∧ c.pllLock = true ∧
      c.pllSrcHse = true ∧ c.sw = .pll ∧ c.sws = .pll := by
  unfold ClkCtrl.clockState
  split
  · simp_all
  · rename_i h
    constructor
    · intro e; split at e <;> cases e
    · intro e; simp [e] at h

/-- StopWake(S) (R240). -/
theorem stopWake_iff (s : State) :
    stopWake s = true ↔ wakes s .extiWake = true ∨ wakes s .rtcAlarm = true := by
  simp [stopWake, stopSources]

/-- SleepWake(S) (R240). -/
theorem sleepWake_iff (s : State) : sleepWake s = true ↔ ∃ src, wakes s src = true := by
  constructor
  · intro h
    obtain ⟨src, _, hw⟩ := List.any_eq_true.1 h
    exact ⟨src, hw⟩
  · rintro ⟨src, hw⟩
    exact List.any_eq_true.2 ⟨src, by cases src <;> simp [sleepSources], hw⟩

/-- A draw that obeys R139's laws is taken as it is. -/
theorem lawfulWake_of_lawful (d : WakeDraw) (h1 : d.hseRdy = true → d.hseOn = true)
    (h2 : d.pllLock = true → d.pllOn = true ∧ d.hseRdy = true) (h3 : d.swPll = true → d.pllOn = true)
    (h4 : d.swsPll = true → d.pllLock = true) : lawfulWake d = d := by
  obtain ⟨v, ho, hr, po, pl, sw, sws⟩ := d
  cases ho <;> cases hr <;> cases po <;> cases pl <;> cases sw <;> cases sws <;>
    simp_all [lawfulWake]

/-- A fault bit that is raised is set, and the others are as before (R230). -/
theorem FaultBits.get_set (f : FaultBits) (c c' : FaultCode) :
    (f.set c).get c' = (decide (c' = c) || f.get c') := by
  cases c <;> cases c' <;> simp [FaultBits.set, FaultBits.get]

/-- A pending bit that is written reads back, and the others are as before (R37). -/
theorem Pending.get_set (p : Pending) (src src' : Source) (b : Bool) :
    (p.set src b).get src' = if src' = src then b else p.get src' := by
  cases src <;> cases src' <;> simp [Pending.set, Pending.get]

end Sys2Proof.Machine
end

