-- ==== Sys2Proof/Laws/Memory.lean ====
section
/-! SUPPORT. The console buffers' contents: a store is read back, leaves every other index alone, and keeps the
canonical form. -/

namespace Sys2Proof.Machine

theorem Memory.read_write_same (m : Memory) (i u : Nat) : (m.write i u).read i = some u := by
  induction m with
  | nil => simp [Memory.write, Memory.read]
  | cons c rest ih =>
    obtain ⟨k, v⟩ := c
    unfold Memory.write
    split
    · simp [Memory.read]
    · split
      · simp [Memory.read]
      · simp_all [Memory.read]

theorem Memory.read_write_other (m : Memory) (i j u : Nat) (h : j ≠ i) :
    (m.write i u).read j = m.read j := by
  induction m with
  | nil => simp [Memory.write, Memory.read, h]
  | cons c rest ih =>
    obtain ⟨k, v⟩ := c
    unfold Memory.write
    split
    · simp [Memory.read, h]
    · split
      · subst_vars; simp [Memory.read, h]
      · simp [Memory.read, ih]

/-- Every entry of a canonical list lies above its head. -/
theorem Memory.wf_cons {k v : Nat} {m : Memory} :
    Memory.wf ((k, v) :: m) = true ↔ (∀ c ∈ m.head?, k < c.1) ∧ Memory.wf m = true := by
  cases m with
  | nil => simp [Memory.wf]
  | cons c rest => simp [Memory.wf]

theorem Memory.head_write (m : Memory) (i u : Nat) :
    ∀ c ∈ (m.write i u).head?, c.1 = i ∨ ∃ d ∈ m.head?, c.1 = d.1 := by
  cases m with
  | nil => simp [Memory.write]
  | cons c rest =>
    obtain ⟨k, v⟩ := c
    unfold Memory.write
    split <;> simp
    split <;> simp

theorem Memory.wf_write (m : Memory) (i u : Nat) (h : m.wf = true) : (m.write i u).wf = true := by
  induction m with
  | nil => simp [Memory.write, Memory.wf]
  | cons c rest ih =>
    obtain ⟨k, v⟩ := c
    rw [Memory.wf_cons] at h
    unfold Memory.write
    split
    · rename_i hlt
      rw [Memory.wf_cons, Memory.wf_cons]
      exact ⟨by simpa using hlt, h⟩
    · split
      · rename_i heq
        rw [Memory.wf_cons]
        exact ⟨by simpa [heq] using h.1, h.2⟩
      · rw [Memory.wf_cons]
        refine ⟨fun c hc => ?_, ih h.2⟩
        rcases Memory.head_write rest i u c hc with h' | ⟨d, hd, h'⟩
        · omega
        · have := h.1 d hd; omega

/-- What the collaborator does to a buffer keeps its contents canonical. -/
theorem Ring.act_wf (p : Params) (a : RingAction) (r : Ring) (h : r.contents.wf = true) :
    (r.act p a).contents.wf = true := by
  unfold Ring.act
  split
  · cases a <;> dsimp only <;> split <;> first | exact h | exact Memory.wf_write _ _ _ h
  · exact h

/-- SI_CONSOLE leaves a buffer's contents alone. -/
@[simp] theorem Ring.emptied_contents (r : Ring) : r.emptied.contents = r.contents := rfl

/-- The reset state's buffers are in the canonical form. -/
theorem reset_rings_wf :
    State.reset.txbuf.contents.wf = true ∧ State.reset.rxbuf.contents.wf = true := by decide

end Sys2Proof.Machine
end

