-- ==== Sys2Proof/Laws/PerInstr.lean ====
section
/-! SUPPORT. Per-instruction facts about the commands as syntax: family Encoding. -/

namespace Sys2Proof.Laws

/-- The command is well formed, its fields pass the format's checks (R80), and its word is one of the legal
words of R81. -/
def Encoding.Statement (i : Instr) : Prop :=
  i.wellFormed = true ∧ (encodeFields i).wellFormed = true ∧ legalWord (encodeWord i) = true

theorem Encoding.sysInit : Encoding.Statement .sysInit := by unfold Encoding.Statement; decide
theorem Encoding.enterSleep : Encoding.Statement .enterSleep := by unfold Encoding.Statement; decide
theorem Encoding.enterStop : Encoding.Statement .enterStop := by unfold Encoding.Statement; decide
theorem Encoding.exitStop : Encoding.Statement .exitStop := by unfold Encoding.Statement; decide
theorem Encoding.clkCold : Encoding.Statement .clkCold := by unfold Encoding.Statement; decide
theorem Encoding.clkResume : Encoding.Statement .clkResume := by unfold Encoding.Statement; decide
theorem Encoding.calibrate : Encoding.Statement .calibrate := by unfold Encoding.Statement; decide
theorem Encoding.csBegin : Encoding.Statement .csBegin := by unfold Encoding.Statement; decide
theorem Encoding.csEnd (t : BitVec 1) : Encoding.Statement (.csEnd t) := by
  unfold Encoding.Statement; revert t; decide

end Sys2Proof.Laws
end

