-- ==== Sys2Proof/Tests/Slice0.lean ====
section
/-! SUPPORT. The session's own tests: the format's checks refuse ill-formed words, words written out from R81
decode to their commands, one small step per command against the vectors of 95_test_vectors.md, and for every
obligation with hypotheses a concrete state that meets them together. -/

namespace Sys2Proof.Tests

open Sys2Proof Sys2Proof.Machine

/-- The outcome is a next state of which `p` holds. -/
def answers (o : Host.Outcome State Fault Refusal) (p : State → Bool) : Bool :=
  match o with
  | .next t => p t
  | .fault _ => false
  | .refused _ => false

/-! ### WellFormed: an ill-formed word for each check (R80, R81) -/

theorem test_wellFormed_accepts : (Cmdw.mk 0x31#8 1#1 0#23).wellFormed = true := by decide
theorem test_opAssigned_refuses : (Cmdw.mk 0x12#8 0#1 0#23).opAssigned = false := by decide
theorem test_tokenAllowed_refuses : (Cmdw.mk 0x30#8 1#1 0#23).tokenAllowed = false := by decide
theorem test_reservedZero_refuses : (Cmdw.mk 0x03#8 0#1 0x400000#23).reservedZero = false := by decide
theorem test_wellFormed_refuses :
    (Cmdw.mk 0x12#8 0#1 0#23).wellFormed = false ∧ (Cmdw.mk 0x30#8 1#1 0#23).wellFormed = false ∧
    (Cmdw.mk 0x03#8 0#1 0x400000#23).wellFormed = false := by decide
theorem test_instr_wellFormed : (Instr.csEnd 1#1).wellFormed = true ∧ Instr.sysInit.wellFormed = true := by decide

/-! ### Decoding: words written out bit by bit from R80 and R81, `{rsv, t, op}` -/

theorem test_decode_sysInit : decodeWord 0b00000000000000000000000_0_00000001#32 = .ok .sysInit := rfl
theorem test_decode_enterSleep : decodeWord 0b00000000000000000000000_0_00000010#32 = .ok .enterSleep := rfl
theorem test_decode_enterStop : decodeWord 0b00000000000000000000000_0_00000011#32 = .ok .enterStop := rfl
theorem test_decode_exitStop : decodeWord 0b00000000000000000000000_0_00000100#32 = .ok .exitStop := rfl
theorem test_decode_clkCold : decodeWord 0b00000000000000000000000_0_00010000#32 = .ok .clkCold := rfl
theorem test_decode_clkResume : decodeWord 0b00000000000000000000000_0_00010001#32 = .ok .clkResume := rfl
theorem test_decode_calibrate : decodeWord 0b00000000000000000000000_0_00100000#32 = .ok .calibrate := rfl
theorem test_decode_csBegin : decodeWord 0b00000000000000000000000_0_00110000#32 = .ok .csBegin := rfl
theorem test_decode_csEnd0 : decodeWord 0b00000000000000000000000_0_00110001#32 = .ok (.csEnd 0#1) := rfl
theorem test_decode_csEnd1 : decodeWord 0b00000000000000000000000_1_00110001#32 = .ok (.csEnd 1#1) := rfl

/-- The bytes as stored, the least significant first (R64), with what follows left over. -/
theorem test_decode_bytes : decode [0x31#8, 0x01#8, 0x00#8, 0x00#8, 0xAA#8] = .ok (.csEnd 1#1, [0xAA#8]) := rfl
theorem test_decode_short : decode [0x31#8, 0x01#8, 0x00#8] = .error .tooShort := rfl

/-- V-EN-1, V-EN-3, V-EN-4, V-EN-5, V-EN-7, V-EN-8: each illegal word by name. -/
theorem test_decode_illegal :
    decodeWord 0x00000000#32 = .error .unassignedOpcode ∧ decodeWord 0x00000101#32 = .error .tokenBit ∧
    decodeWord 0x80000003#32 = .error .reservedBits ∧ decodeWord 0x00000012#32 = .error .unassignedOpcode ∧
    decodeWord 0x000000FF#32 = .error .unassignedOpcode ∧ decodeWord 0x00000130#32 = .error .tokenBit :=
  ⟨rfl, rfl, rfl, rfl, rfl, rfl⟩

/-- Every row of R81 accepts its own word, and the legality of a word is that some row does. -/
theorem test_opcodeTable :
    legalWord 0x00000131#32 = true ∧ legalWord 0x00000130#32 = false ∧ legalWord 0x00000001#32 = true ∧
    (opcodeTable.all fun r => r.holds r.pattern) = true := by decide

/-! ### Small states -/

/-- Draws that take no status, no wake source of their own and the Stop-wake draw W0. -/
def draws0 : Draws := ⟨none, .extiWake, ⟨false, false, false, false, false, false, false⟩, 0x2A#32⟩

/-- The same with a status. -/
def drawsStatus (st : StepStatus) : Draws := { draws0 with status := some st }

/-- The reset state S0 in another phase. -/
def inPhase (p : Phase) (iss : Bool) (cmd : Option SeqOp) : State :=
  { State.reset with seqPhase := p, issued := iss, curCmd := cmd }

/-- A running clock (CLKCTRL = 0x0000FFFF). -/
def runningClk : ClkCtrl :=
  ⟨true, true, true, true, true, true, true, true, true, .pll, .pll, true, true, true⟩

/-- An Initialized block with a running clock, at rest. -/
def initialized : State := { State.reset with lifecycle := .initialized, clk := runningClk }

/-- The block with an open critical section entered with IE = 1. -/
def inSection : State := { State.reset with csActive := true, csToken := true, ie := false }

/-- A state with one action next. -/
def next (s : State) (a : Action) : State := { s with agenda := [a] }

/-! ### One step per command (95_test_vectors.md) -/

/-- V-EN-2. -/
theorem test_sysInit :
    answers (step (State.reset.withFetchWord 32 0x00000001)) (fun t =>
      curCmdCode t == 0x01#8 && t.seqPhase.code == 0x01#6 && busy t && t.evt == [.reset, .cmd .sysInit]) = true := by
  decide
theorem test_enterSleep :
    answers (step (State.reset.withFetchWord 32 0x00000002)) (fun t => t.seqPhase.code == 0x25#6 && !t.issued) = true := by
  decide
/-- STATE_ERROR before SYS_INIT (R84, R280). -/
theorem test_enterStop_uninitialized :
    answers (step (State.reset.withFetchWord 32 0x00000003)) (fun t => faultWord t.fault == 0x80#32 && !busy t) = true := by
  decide
theorem test_enterStop :
    answers (step (initialized.withFetchWord 32 0x00000003)) (fun t => t.seqPhase.code == 0x1A#6 && curCmdCode t == 0x03#8) = true := by
  decide
theorem test_exitStop :
    answers (step (initialized.withFetchWord 32 0x00000004)) (fun t => t.seqPhase.code == 0x23#6 && curCmdCode t == 0x04#8) = true := by
  decide
theorem test_clkCold :
    answers (step (State.reset.withFetchWord 32 0x00000010)) (fun t => t.seqPhase.code == 0x02#6 && curCmdCode t == 0x10#8) = true := by
  decide
theorem test_clkResume :
    answers (step (State.reset.withFetchWord 32 0x00000011)) (fun t => t.seqPhase.code == 0x08#6 && curCmdCode t == 0x11#8) = true := by
  decide
/-- CMD_BUSY (R100). -/
theorem test_clkResume_busy :
    answers (step ((inPhase .calWait false (some .calibrate)).withFetchWord 32 0x00000011)) (fun t =>
      faultWord t.fault == 0x02#32 && t.seqPhase == .calWait && curCmdCode t == 0x20#8) = true := by
  decide
theorem test_calibrate :
    answers (step (State.reset.withFetchWord 32 0x00000020)) (fun t => t.seqPhase.code == 0x14#6 && curCmdCode t == 0x20#8) = true := by
  decide
/-- The example of R210. -/
theorem test_csBegin :
    answers (step (State.reset.withFetchWord 32 0x00000030)) (fun t =>
      t.csToken && !t.ie && t.csActive && t.evt == [.reset, .csBegin true]) = true := by
  decide
theorem test_csBegin_nested :
    answers (step (inSection.withFetchWord 32 0x00000030)) (fun t =>
      faultWord t.fault == 0x04#32 && t.csActive && t.csToken && !t.ie) = true := by
  decide
/-- V-EN-6. -/
theorem test_csEnd :
    answers (step (inSection.withFetchWord 32 0x00000131)) (fun t => t.ie && !t.csActive && t.evt == [.reset, .csEnd true]) = true := by
  decide
theorem test_csEnd_faults :
    answers (step (inSection.withFetchWord 32 0x00000031)) (fun t => faultWord t.fault == 0x10#32 && t.csActive) = true ∧
    answers (step (State.reset.withFetchWord 32 0x00000031)) (fun t => faultWord t.fault == 0x08#32 && t.ie) = true := by
  decide

/-- V-EN-1 and V-EN-8: illegal words, the second while BUSY. -/
theorem test_illegal :
    answers (step (State.reset.withFetchWord 32 0x00000000)) (fun t => faultWord t.fault == 0x01#32 && !busy t) = true ∧
    answers (step ((inPhase .siEntry false (some .sysInit)).withFetchWord 32 0x00000130)) (fun t => faultWord t.fault == 0x01#32) = true := by
  decide

/-! ### The window (V-MA-1 to V-MA-6) -/

theorem test_window_writes :
    answers (memWrite 0x04#32 4 0#32 State.reset) (fun t => faultWord t.fault == 0x40#32 && statusWord t == 0x400#32) = true ∧
    answers (memWrite 0x00#32 1 1#32 State.reset) (fun t => faultWord t.fault == 0x40#32 && !busy t) = true := by
  decide
theorem test_window_reads :
    (memRead 0x02#32 4 State.reset).readData = some 0#32 ∧ faultWord (memRead 0x02#32 4 State.reset).fault = 0x40#32 ∧
    (memRead 0x28#32 4 State.reset).readData = some 0#32 ∧ faultWord (memRead 0x28#32 4 State.reset).fault = 0x40#32 ∧
    (memRead 0x00#32 4 State.reset).readData = some 0#32 ∧ faultWord (memRead 0x00#32 4 State.reset).fault = 0#32 ∧
    (memRead 0x04#32 4 State.reset).readData = some 0x400#32 ∧ (memRead 0x04#32 4 State.reset).fault = FaultBits.zero := by
  decide
/-- The registers of V-SI-1's end state that depend on the clock alone. -/
theorem test_registers_running :
    clkctrlWord runningClk = 0x0000FFFF#32 ∧ irqWord initialized = 0x00000B00#32 ∧ pwrctrlWord State.reset.pwr = 0x31#32 := by
  decide

/-! ### Witnesses: a concrete state and operands that meet each statement's hypotheses together -/

/-- One word for each of the three ways of R83, at the ends of its ranges. -/
theorem witness_IllegalWordRaisesIllegalCmd :
    BitVec.extractLsb' 0 8 (0x000000FF#32) ∉ [0x01#8, 0x02#8, 0x03#8, 0x04#8, 0x10#8, 0x11#8, 0x20#8, 0x30#8, 0x31#8] ∧
    BitVec.extractLsb' 9 23 (0x80000003#32) ≠ 0#23 ∧ BitVec.extractLsb' 9 23 (0x00000201#32) ≠ 0#23 ∧
    (BitVec.extractLsb' 8 1 (0x00000101#32) = 1#1 ∧ BitVec.extractLsb' 0 8 (0x00000101#32) ≠ 0x31#8) := by decide

theorem witness_StepRunsTheDecodedCommand :
    (next State.reset (cmdWrite State.reset.params 0x131#32)).agenda = .main (.write State.reset.params.blockBase 4 0x131#32) :: [] ∧
    decodeWord 0x131#32 = .ok (.csEnd 1#1) ∧ (Instr.csEnd 1#1).wellFormed = true ∧
    decodeTableWord 32 0x131 = some (.csEnd 1#1) ∧ (next State.reset (.fsm draws0)).agenda = .fsm draws0 :: [] ∧
    State.reset.agenda = [] ∧
    (∃ t, step (next State.reset (.main (.read 0x18#32 4))) = .next t ∧ t.readData = some 0x300#32) ∧
    (∃ t, step (next State.reset (.main (.write 0x02#32 2 0#32))) = .next t ∧ t.fault.busError = true) ∧
    (∃ t, step (next State.reset (.env (.setPwrSrc .externalPower))) = .next t ∧ t.pwr.pwrSrc = .externalPower) :=
  ⟨rfl, rfl, rfl, rfl, rfl, rfl, ⟨_, rfl, rfl⟩, ⟨_, rfl, rfl⟩, ⟨_, rfl, rfl⟩⟩

theorem witness_CommandAcceptance :
    State.reset.seqPhase = .idle ∧ State.reset.lifecycle = .uninitialized ∧
    (initialized.seqPhase = .idle ∧ initialized.lifecycle = .initialized) ∧
    (inPhase .fatal false (some .clkCold)).seqPhase ≠ .idle := by decide

theorem witness_OneFaultPerWrite :
    (∃ t, memWrite 0x00#32 4 0#32 State.reset = .next t ∧ t.fault.illegalCmd = true) ∧
    (∃ t, memWrite 0x00#32 4 0x30#32 State.reset = .next t ∧ t.fault = FaultBits.zero) :=
  ⟨⟨_, rfl, rfl⟩, ⟨_, rfl, rfl⟩⟩

theorem witness_CsBeginMasksInterrupts :
    State.reset.csActive = false ∧ inSection.csActive = true ∧
    (BitVec.extractLsb' 0 8 (0x00000130#32) = 0x30#8 ∧ (0x00000130#32 : BitVec 32) ≠ 0x30#32) := by decide

theorem witness_CsEndRestoresInterrupts :
    (inSection.csActive = true ∧ inSection.csToken = decide ((1#1 : BitVec 1) = 1#1)) ∧ State.reset.csActive = false ∧
    (inSection.csActive = true ∧ inSection.csToken ≠ decide ((0#1 : BitVec 1) = 1#1)) ∧
    (BitVec.extractLsb' 0 8 (0x00000231#32) = 0x31#8 ∧ (0x00000231#32 : BitVec 32) ≠ 0x31#32 ∧ (0x00000231#32 : BitVec 32) ≠ 0x131#32) := by
  decide

theorem witness_CsPairRestoresInterruptEnable :
    State.reset.csActive = false ∧ ({ State.reset with ie := false } : State).csActive = false := by decide

/-- Admitted at both ends of the window; refused beyond it, off alignment and at another size. -/
theorem witness_AccessAdmission :
    (admittedReg State.reset.params 0x00#32 4).isSome = true ∧ (admittedReg State.reset.params 0x24#32 4).isSome = true ∧
    admittedReg State.reset.params 0x25#32 4 = none ∧ admittedReg State.reset.params 0x28#32 4 = none ∧
    admittedReg State.reset.params 0x04#32 2 = none ∧
    admittedReg { State.reset.params with blockBase := 0x100#32 } 0xFC#32 4 = none := by decide

/-- The lowest and the highest register, WAKE_LATENCY with and without a value. -/
theorem witness_ReadReturnsTheRegister :
    regAt 0x00 = some .cmd ∧ regAt 0x24 = some .wakeLatency ∧ State.reset.params.blockBase.toNat + 0x24 < 2 ^ 32 ∧
    State.reset.wakeLatency = none ∧ ({ State.reset with wakeLatency := some 7#32 } : State).wakeLatency = some 7#32 := by
  decide

theorem witness_WriteReachesOnlyCmd :
    0x04 ∈ [0x04, 0x08, 0x0C, 0x10, 0x14, 0x18, 0x1C, 0x20, 0x24] ∧ State.reset.params.blockBase.toNat + 0x24 < 2 ^ 32 := by
  decide

theorem witness_WindowIsLittleEndian :
    regAt 0x24 = some .wakeLatency ∧ 31 < 32 ∧ State.reset.params.blockBase.toNat + 0x24 + 3 < 2 ^ 32 ∧
    windowByte State.reset 0x05#32 = some 0x04#8 := by decide

theorem witness_ClockStateOfClkctrl :
    clockState initialized = .running ∧ clockState State.reset = .coldDefault ∧
    clockState { State.reset with clk := { State.reset.clk with pllOn := true } } = .transitional := by decide

/-- The draws with every drawn bit set. -/
def resetDraws : ResetDraws := ⟨true, true, true, true, true, true, true, true, true, true, .externalPower⟩

theorem witness_ResetLeavesTheTable :
    (next (inPhase .fatal false (some .clkCold)) (.reset resetDraws)).agenda = .reset resetDraws :: [] ∧
    resets (next (inPhase .fatal false (some .clkCold)) (.reset resetDraws)) = true := by decide

/-! #### The invariants: an Initialized, Calibrated, running block in the middle of a command -/

/-- ENTER_STOP's halt about to be left by the RTC alarm, teardown complete. -/
def halted : State :=
  { initialized with
    seqPhase := .esHalt, issued := true, curCmd := some .enterStop, powerMode := .stop, calState := .calibrated,
    wakeLatency := some 7#32, pending := { State.reset.pending with rtcAlarm := true },
    pwr := { State.reset.pwr with borEn := false, ulp := true, fwu := true, regLp := true },
    periph := { State.reset.periph with stopPinsLp := true }, agenda := [.fsm draws0] }

/-- CLK_COLD's switch to the PLL, issued and followed. -/
def switching : State :=
  { inPhase .ccSysclk true (some .clkCold) with
    clk := { runningClk with rtcselLse := false, systickOn := false }, agenda := [.fsm (drawsStatus .ok)] }

theorem halted_step : ∃ t, step halted = .next t ∧ t.seqPhase = .xsCsBegin ∧ t.powerMode = .run := ⟨_, rfl, rfl, rfl⟩

theorem witness_SequencerInvariantKept : SequencerInv halted ∧ ∃ t, step halted = .next t :=
  ⟨by constructor <;> decide, _, rfl⟩
theorem witness_ClockInvariantKept : ClockInv halted ∧ ∃ t, step halted = .next t :=
  ⟨by constructor <;> decide, _, rfl⟩
/-- Halted; and CC_SYSCLK issued, with SW at the PLL, about to complete. -/
theorem witness_ColdSequenceInvariantKept :
    (SequencerInv halted ∧ ColdInv halted ∧ ∃ t, step halted = .next t) ∧
    SequencerInv switching ∧ ColdInv switching ∧ ∃ t, step switching = .next t ∧ t.seqPhase = .ccRtcclk :=
  ⟨⟨witness_SequencerInvariantKept.1, by constructor <;> decide, _, rfl⟩,
    by constructor <;> decide, by constructor <;> decide, _, rfl, rfl⟩
theorem witness_CalibratorInvariantKept : CalInv halted ∧ ∃ t, step halted = .next t :=
  ⟨by constructor <;> decide, _, rfl⟩
theorem witness_CriticalSectionInvariantKept :
    CriticalInv inSection ∧ ∃ t, step (next inSection (.fsm draws0)) = .next t ∧ t.csActive = true :=
  ⟨fun _ => rfl, _, rfl, rfl⟩
theorem witness_TeardownInvariantKept : SequencerInv halted ∧ TeardownInv halted ∧ ∃ t, step halted = .next t :=
  ⟨witness_SequencerInvariantKept.1, by constructor <;> decide, _, rfl⟩
theorem witness_OrderingInvariantKept : OrderInv halted ∧ ∃ t, step halted = .next t :=
  ⟨by constructor <;> decide, _, rfl⟩

/-- The console's buffer with a unit in it, and an index at the buffer's end. -/
def withUnit : State :=
  { halted with txbuf := ⟨some 1023, some 0, [(0, 0x41)]⟩, rxbuf := ⟨some 0, some 0, []⟩, agenda := [.env (.console .tx (.store 1023 0xFF))] }

theorem witness_ConsoleInvariantKept :
    ConsoleInv withUnit ∧ ∃ t, step withUnit = .next t ∧ t.txbuf.contents = [(0, 0x41), (1023, 0xFF)] := by
  refine ⟨⟨by decide, ⟨rfl, ?_, ?_, ?_⟩, ⟨rfl, ?_, ?_, ?_⟩, ?_⟩, _, rfl, by decide⟩ <;>
    simp [withUnit, halted, initialized, State.reset, Params.initial]

/-! #### Rules about every step -/

/-- SI_FIRSTBOOT writes LIFECYCLE, with no reset next. -/
theorem witness_LifecycleWrittenOnlyByFirstboot :
    ∃ t, step (next (inPhase .siFirstboot false (some .sysInit)) (.fsm draws0)) = .next t ∧ t.lifecycle = .initialized ∧
      resets (next (inPhase .siFirstboot false (some .sysInit)) (.fsm draws0)) = false := ⟨_, rfl, rfl, rfl⟩

theorem witness_CalibratedStaysUntilReset :
    CalInv halted ∧ halted.calState = .calibrated ∧ (∃ t, step halted = .next t) ∧ resets halted = false :=
  ⟨witness_CalibratorInvariantKept.1, rfl, ⟨_, rfl⟩, rfl⟩

theorem witness_FaultsAndHistoryPersist :
    (∃ t, step halted = .next t) ∧ resets halted = false := ⟨⟨_, rfl⟩, rfl⟩

/-- About to enter Stop, about to enter Sleep, and asleep with a wake pending. -/
def enteringStop : State :=
  { inPhase .esHalt false (some .enterStop) with lifecycle := .initialized, agenda := [.fsm draws0] }
def enteringSleep : State := next (inPhase .slHalt false (some .enterSleep)) (.fsm draws0)
def asleep : State :=
  { inPhase .slHalt true (some .enterSleep) with
    powerMode := .sleepLight, pending := { State.reset.pending with extiWake := true }, agenda := [.fsm draws0] }

theorem witness_HaltsAndWakes :
    (SequencerInv enteringStop ∧ resets enteringStop = false ∧ ∃ t, step enteringStop = .next t ∧ t.powerMode = .stop) ∧
    (SequencerInv enteringSleep ∧ ∃ t, step enteringSleep = .next t ∧ t.powerMode = .sleepLight) ∧
    (SequencerInv halted ∧ ∃ t, step halted = .next t ∧ t.powerMode = .run) ∧
    (SequencerInv asleep ∧ ∃ t, step asleep = .next t ∧ t.powerMode = .run) :=
  ⟨⟨by constructor <;> decide, rfl, _, rfl, rfl⟩, ⟨by constructor <;> decide, _, rfl, rfl⟩,
    ⟨witness_SequencerInvariantKept.1, _, rfl, rfl⟩, ⟨by constructor <;> decide, _, rfl, rfl⟩⟩

theorem witness_SoftwareWritesOnlyThroughCommands :
    (∃ t, step (next State.reset (cmdWrite State.reset.params 0x10#32)) = .next t ∧ t.seqPhase = .ccVos) ∧
    (∃ t, step (next State.reset (.handler .extiWake [])) = .next t) := ⟨⟨_, rfl, rfl⟩, ⟨_, rfl⟩⟩

theorem witness_NextPhaseDependsOn :
    (fsmStep draws0 (inPhase .siWdg false (some .exitStop))).isSome = true ∧
    (fsmStep (drawsStatus .fail) (inPhase .ccVos true (some .clkCold))).isSome = true := by decide

/-- A draw at each end: nothing survives, everything does. -/
theorem witness_StopWakeDraw :
    (fsmStep draws0 halted).isSome = true ∧ halted.seqPhase = .esHalt ∧ halted.issued = true ∧
    (runningClk.afterWake draws0.wakeClk).clockState = .coldDefault ∧
    (runningClk.afterWake ⟨true, true, true, true, true, true, true⟩) = runningClk := by decide

/-- Each of R175's changes, permitted; and a step that is no reset and no wake, though ES_HALT takes it. -/
theorem witness_ReadinessChanges :
    vosMayRise { State.reset.clk with vosFull := true } = true ∧ hseMayRise { State.reset.clk with hseOn := true } = true ∧
    lseMayRise { State.reset.clk with lseOn := true } = true ∧
    lockMayRise { State.reset.clk with pllOn := true, pllSrcHse := true, hseRdy := true } = true ∧
    swsMayFollow { State.reset.clk with sw := .pll, pllLock := true } = true ∧ swsMayFollow State.reset.clk = true ∧
    resets enteringStop = false ∧ ∃ t, step enteringStop = .next t ∧ ¬ leavesStop enteringStop t :=
  ⟨by decide, by decide, by decide, by decide, by decide, by decide, rfl, _, rfl, by decide⟩

theorem witness_InterruptSources :
    (inPhase .calWait false (some .calibrate)).cal.timerArmed = false ∧
    ({ State.reset with cal := ⟨true, false⟩ } : State).cal.timerArmed = true ∧ State.reset.pending.calTimer = false ∧
    initialized.clk.systickOn = true ∧ State.reset.clk.systickOn = false ∧
    withUnit.txbuf.head.isSome = true ∧ withUnit.txbuf.tail.isSome = true ∧
    (1023 < withUnit.params.consoleCap ∧ ¬ 1024 < withUnit.params.consoleCap) ∧
    (0xFF < 2 ^ withUnit.params.consoleUnitBits ∧ ¬ 0x100 < 2 ^ withUnit.params.consoleUnitBits) ∧
    State.reset.txbuf.head.isSome = false := by decide

/-- A state in which the CAL_TIMER handler is enabled, one for EXTI_WAKE, and one where neither is. -/
def timerFired : State :=
  { inPhase .calWait false (some .calibrate) with
    calState := .calibrating, cal := ⟨true, false⟩, enable := { State.reset.enable with calTimer := true },
    pending := { State.reset.pending with calTimer := true }, agenda := [.handler .calTimer []] }

def extiFired : State := { State.reset with pending := { State.reset.pending with extiWake := true } }

theorem witness_HandlerSteps :
    handlerEnabled timerFired .calTimer = true ∧ (∃ t, step timerFired = .next t ∧ t.cal.calDone = true) ∧
    handlerEnabled extiFired .extiWake = true ∧
    (∃ t, step (next extiFired (.handler .extiWake [])) = .next t ∧ t.pending.extiWake = false) ∧
    (∃ t, step (next extiFired (.handler .extiWake [.read 0x18#32 4, .read 0x24#32 4])) = .next t ∧
      t.pending.extiWake = false ∧ t.fault = FaultBits.zero) ∧
    handlerEnabled State.reset .extiWake = false :=
  ⟨rfl, ⟨_, rfl, rfl⟩, rfl, ⟨_, rfl, rfl⟩, ⟨_, rfl, rfl, rfl⟩, rfl⟩

/-- R238: a body with an access that is not admitted is no handler's; log entry 25: a read of IRQ in the handler
sees its own pending bit cleared. -/
theorem test_handlerBody :
    bodyAllowed State.reset.params .extiWake [.write 0x04#32 4 0#32] = false ∧
    bodyAllowed State.reset.params .extiWake [.read 0x28#32 4] = false ∧
    answers (step (next extiFired (.handler .extiWake [.read 0x18#32 4]))) (fun t => t.readData == some 0x300#32) = true := by
  decide

/-- A handler that writes one command, and one whose critical section holds one. -/
theorem witness_HandlerKeepsInterruptEnable :
    CriticalInv extiFired ∧ handlerEnabled extiFired .extiWake = true ∧
    (∃ t, step (next extiFired (.handler .extiWake [.write 0#32 4 0x10#32])) = .next t ∧ t.seqPhase = .ccVos ∧ t.ie = true) ∧
    (∃ t, step (next extiFired (.handler .extiWake [.write 0#32 4 0x30#32, .write 0#32 4 0x10#32, .write 0#32 4 0x131#32])) = .next t ∧
      t.seqPhase = .ccVos ∧ t.ie = true ∧ t.csActive = false ∧ t.fault = FaultBits.zero) :=
  ⟨(fun h => by cases h), rfl, ⟨_, rfl, rfl, rfl⟩, ⟨_, rfl, rfl, rfl, rfl, rfl⟩⟩

/-- CC_SYSTICK reached with the clock running, and CR_SW about to complete. -/
theorem witness_RunningUntilStopOrReset :
    ClockInv { inPhase .ccSystick false (some .clkCold) with clk := runningClk } ∧
    ClockInv { inPhase .crSw true (some .clkResume) with clk := runningClk } ∧
    (∃ t, fsmStep draws0 { inPhase .crSw true (some .clkResume) with clk := runningClk } = some t ∧ t.seqPhase ≠ .crSw) ∧
    (let s := { enteringStop with clk := runningClk }
     clockState s = .running ∧ resets s = false ∧
     ∃ t, step s = .next t ∧ ¬ leavesStop s t ∧ t.powerMode = .stop ∧ clockState t = .running) := by
  refine ⟨by constructor <;> decide, by constructor <;> decide, ⟨_, rfl, by decide⟩, rfl, rfl, _, rfl, by decide, rfl, rfl⟩

theorem witness_FatalHoldsUntilReset :
    (∃ t, step (next (inPhase .fatal false (some .clkCold)) (.env .updateSws)) = .next t ∧ t.seqPhase = .fatal) ∧
    (∃ t, step (next (inPhase .ccOsc true (some .clkCold)) (.fsm (drawsStatus .fail))) = .next t ∧ t.seqPhase = .fatal) :=
  ⟨⟨_, rfl, rfl⟩, ⟨_, rfl, rfl⟩⟩

/-- One waiting state for each clause. -/
theorem witness_UnmetWaitsHaveNoStep :
    ([Phase.crVos, .crHse, .crPll, .crSw, .esHalt, .slHalt, .ccVos, .ccOsc, .ccPll, .ccSysclk, .ccRtcclk, .calWait].all
      fun p => (fsmStep draws0 (inPhase p true none)).isNone) = true := by decide

/-! #### The phases: for each clause a state in that phase, the step taken -/

theorem witness_ColdStepCompletion :
    ([Phase.ccVos, .ccOsc, .ccPll, .ccSysclk, .ccRtcclk].all fun p =>
      (fsmStep (drawsStatus .fail) (inPhase p true none)).isSome &&
      (fsmStep (drawsStatus .ok) { inPhase p true none with clk := runningClk }).isSome) = true ∧
    ([Phase.ccVos, .ccOsc, .ccPll, .ccSysclk].all fun p =>
      (fsmStep (drawsStatus .ok) (inPhase p true none)).isNone) = true := by decide

theorem witness_ColdPhaseWrites :
    ([Phase.ccVos, .ccOsc, .ccPll, .ccSysclk, .ccRtcclk, .ccSystick].all fun p =>
      (fsmStep draws0 (inPhase p false none)).isSome && (fsmStep draws0 (inPhase p false (some .sysInit))).isSome) = true := by
  decide

theorem witness_ResumePhases :
    ([Phase.crVos, .crHse, .crPll, .crSw].all fun p =>
      (fsmStep draws0 (inPhase p false none)).isSome && (fsmStep draws0 (inPhase p true none)).isNone &&
      (fsmStep draws0 { inPhase p true none with clk := runningClk }).isSome &&
      (fsmStep draws0 { inPhase p true (some .exitStop) with clk := runningClk }).isSome) = true := by decide

/-- CR_PLL about to issue, the PLL off. -/
def enablingPll : State := next (inPhase .crPll false (some .clkResume)) (.fsm draws0)

theorem witness_PllConfiguration :
    (∃ t, step enablingPll = .next t ∧ t.clk.pllOn = true ∧ ¬ leavesStop enablingPll t) ∧ enablingPll.seqPhase = .crPll ∧ enablingPll.issued = false ∧
    enablingPll.clk.pllOn = false ∧ resets enablingPll = false :=
  ⟨⟨_, rfl, rfl, by decide⟩, rfl, rfl, rfl, rfl⟩

theorem witness_SysInitPhases :
    ([Phase.siEntry, .siConsole, .siRtc, .siLeds, .siPins, .siLppolicy, .siAdc, .siRadio, .siFirstboot, .siWdg].all fun p =>
      (fsmStep draws0 (inPhase p false (some .sysInit))).isSome &&
      (fsmStep draws0 { inPhase p false (some .exitStop) with
        lifecycle := .initialized, pwr := { State.reset.pwr with pwrSrc := .externalPower } }).isSome) = true := by decide

theorem witness_StopPhases :
    ([Phase.esCsBegin, .esRadioDeinit, .esAdcDeinit, .esPins, .esCsEnd, .esBorOff, .esClrWuf, .esUlpFwu, .xsCsBegin, .xsCsEnd].all
      fun p => (fsmStep draws0 (inPhase p false (some .enterStop))).isSome) = true := by decide

theorem witness_HaltPhases :
    stopWake halted = true ∧ wakes halted .rtcAlarm = true ∧ stopWake (inPhase .esHalt true none) = false ∧
    sleepWake { inPhase .slHalt true none with pending := { State.reset.pending with extiWake := true } } = true ∧
    sleepWake (inPhase .slHalt true none) = false ∧
    (fsmStep draws0 (inPhase .esHalt false none)).isSome = true ∧ (fsmStep draws0 (inPhase .slHalt false none)).isSome = true := by
  decide

theorem witness_CalibratorPhases :
    ([CalState.uncalibrated, .calibrating, .calibrated].all fun c => [Phase.calCheck, .calArm, .calRecord].all fun p =>
      (fsmStep draws0 { inPhase p false (some .sysInit) with calState := c }).isSome &&
      (fsmStep draws0 { inPhase p false (some .calibrate) with calState := c }).isSome) = true ∧
    (fsmStep draws0 { inPhase .calWait false none with cal := ⟨false, true⟩ }).isSome = true ∧
    (fsmStep draws0 (inPhase .calWait false none)).isNone = true := by decide

/-! #### Whole commands: a start state that meets the hypotheses -/

/-- A state with a schedule. -/
def scheduled (s : State) (l : List Action) : State := { s with agenda := l }

theorem witness_ClkResumeRunsToRunning :
    let s := scheduled State.reset (cmdWrite State.reset.params 0x11#32 :: (resumeSchedule draws0 ++ []))
    atRest s ∧ s.agenda = cmdWrite s.params 0x11#32 :: (resumeSchedule draws0 ++ []) :=
  ⟨⟨rfl, rfl, rfl⟩, rfl⟩

theorem witness_ClkColdRunsToRunning :
    let s := scheduled State.reset (cmdWrite State.reset.params 0x10#32 :: (coldSchedule draws0 ++ []))
    atRest s ∧ s.agenda = cmdWrite s.params 0x10#32 :: (coldSchedule draws0 ++ []) :=
  ⟨⟨rfl, rfl, rfl⟩, rfl⟩

theorem witness_CalibrateArmsOnce :
    (let s := scheduled State.reset (cmdWrite State.reset.params 0x20#32 :: (calSchedule draws0 ++ []))
     atRest s ∧ s.ie = true ∧ s.powerMode = .run ∧ s.calState ≠ .calibrated ∧
     s.agenda = cmdWrite s.params 0x20#32 :: (calSchedule draws0 ++ [])) ∧
    (let s := scheduled { State.reset with calState := .calibrated } [cmdWrite State.reset.params 0x20#32, .fsm draws0]
     atRest s ∧ s.calState = .calibrated ∧ s.agenda = cmdWrite s.params 0x20#32 :: .fsm draws0 :: []) :=
  ⟨⟨⟨rfl, rfl, rfl⟩, rfl, rfl, by decide, rfl⟩, ⟨rfl, rfl, rfl⟩, rfl, rfl⟩

/-- EXTI; the RTC alarm and, with the tick on, SYSTICK are enabled as well. -/
theorem witness_EnterSleepWakesOnInterrupt :
    (let s := scheduled initialized [cmdWrite State.reset.params 0x2#32, .fsm draws0, .env (.setPending .extiWake), .fsm draws0, .handler .extiWake []]
     atRest s ∧ s.ie = true ∧ s.powerMode = .run ∧ Source.extiWake ≠ .calTimer ∧ enabled s .extiWake = true ∧
     draws0.wakeSrc = .extiWake ∧
     s.agenda = cmdWrite s.params 0x2#32 :: .fsm draws0 :: .env (.setPending .extiWake) :: .fsm draws0 :: .handler .extiWake [] :: []) ∧
    enabled initialized .rtcAlarm = true ∧ enabled initialized .sysTick = true :=
  ⟨⟨⟨rfl, rfl, rfl⟩, rfl, rfl, by decide, rfl, rfl, rfl⟩, rfl, rfl⟩

theorem witness_ExitStopRebuilds :
    let s := scheduled initialized (cmdWrite State.reset.params 0x4#32 :: .fsm draws0 :: (resumeSchedule draws0 ++ (List.replicate 4 (.fsm draws0) ++ [])))
    atRest s ∧ s.lifecycle = .initialized ∧ s.csActive = false ∧
    s.agenda = cmdWrite s.params 0x4#32 :: .fsm draws0 :: (resumeSchedule draws0 ++ (List.replicate 4 (.fsm draws0) ++ [])) :=
  ⟨⟨rfl, rfl, rfl⟩, rfl, rfl, rfl⟩

/-- ENTER_STOP's schedule with EXTI as its wake. -/
def stopSchedule : List Action :=
  cmdWrite State.reset.params 0x3#32 :: (List.replicate 9 (.fsm draws0) ++
    (.env (.setPending .extiWake) :: .fsm draws0 :: .handler .extiWake [] :: .fsm draws0 :: (resumeSchedule draws0 ++ (List.replicate 4 (.fsm draws0) ++ []))))

theorem witness_EnterStopReturnsRebuilt :
    let s := scheduled initialized stopSchedule
    atRest s ∧ s.lifecycle = .initialized ∧ s.csActive = false ∧ s.ie = true ∧ s.powerMode = .run ∧
    enabled s .extiWake = true ∧ draws0.wakeSrc = .extiWake ∧
    s.agenda = cmdWrite s.params 0x3#32 :: (List.replicate 9 (.fsm draws0) ++
      (.env (.setPending .extiWake) :: .fsm draws0 :: .handler .extiWake [] :: .fsm draws0 :: (resumeSchedule draws0 ++ (List.replicate 4 (.fsm draws0) ++ [])))) :=
  ⟨⟨rfl, rfl, rfl⟩, rfl, rfl, rfl, rfl, rfl, rfl, rfl⟩

theorem witness_SysInitColdBoot :
    (let s := scheduled State.reset (cmdWrite State.reset.params 0x1#32 :: .fsm draws0 :: (coldSchedule draws0 ++ (List.replicate 8 (.fsm draws0) ++ (calSchedule draws0 ++ .fsm draws0 :: []))))
     atRest s ∧ s.lifecycle = .uninitialized ∧ s.ie = true ∧ s.powerMode = .run ∧ s.calState ≠ .calibrated ∧
     s.pwr.pwrSrc = .batteryPower ∧
     s.agenda = cmdWrite s.params 0x1#32 :: .fsm draws0 :: (coldSchedule draws0 ++ (List.replicate 8 (.fsm draws0) ++ (calSchedule draws0 ++ .fsm draws0 :: [])))) ∧
    (let s := scheduled { State.reset with pwr := { State.reset.pwr with pwrSrc := .externalPower } }
       (cmdWrite State.reset.params 0x1#32 :: .fsm draws0 :: (coldSchedule draws0 ++ (List.replicate 9 (.fsm draws0) ++ [])))
     atRest s ∧ s.lifecycle = .uninitialized ∧ s.pwr.pwrSrc = .externalPower ∧
     s.agenda = cmdWrite s.params 0x1#32 :: .fsm draws0 :: (coldSchedule draws0 ++ (List.replicate 9 (.fsm draws0) ++ []))) :=
  ⟨⟨⟨rfl, rfl, rfl⟩, rfl, rfl, rfl, by decide, rfl, rfl⟩, ⟨rfl, rfl, rfl⟩, rfl, rfl, rfl⟩

theorem witness_SysInitResumes :
    let s := scheduled initialized (cmdWrite State.reset.params 0x1#32 :: .fsm draws0 :: (resumeSchedule draws0 ++ (List.replicate 3 (.fsm draws0) ++ [])))
    atRest s ∧ s.lifecycle = .initialized ∧
    s.agenda = cmdWrite s.params 0x1#32 :: .fsm draws0 :: (resumeSchedule draws0 ++ (List.replicate 3 (.fsm draws0) ++ [])) :=
  ⟨⟨rfl, rfl, rfl⟩, rfl, rfl⟩

/-! #### A healthy run (R176): CR_SW waits, the switch follows, the phase is left -/

def waiting : State :=
  { inPhase .crSw true (some .clkResume) with clk := { runningClk with sws := .internal } }
def followed : State := { waiting with clk := runningClk }
def left : State := { followed with seqPhase := .idle, curCmd := none, issued := false, evt := [.reset, .observed .swsPll] }

def healthyActs : Nat → Action
  | 0 => .env .updateSws
  | _ + 1 => .fsm draws0

def healthyStates : Nat → State
  | 0 => waiting
  | 1 => followed
  | _ + 2 => left

theorem witness_ResumeWaitEndsOnHealthyHardware :
    IsRun healthyActs healthyStates ∧ HwHealthy healthyActs healthyStates ∧ FsmFair healthyActs ∧
    (∀ n d, healthyActs n ≠ .reset d) ∧ ClockInv (healthyStates 0) ∧ (healthyStates 0).issued = true ∧
    (healthyStates 0).seqPhase ∈ [Phase.crVos, .crHse, .crPll, .crSw] ∧
    ((healthyStates 0).seqPhase = .crVos → (healthyStates 0).clk.vosFull = true) ∧
    ((healthyStates 0).seqPhase = .crHse → (healthyStates 0).clk.hseOn = true) ∧
    ((healthyStates 0).seqPhase = .crPll → (healthyStates 0).clk.pllOn = true) := by
  refine ⟨?_, ⟨?_, ?_⟩, ?_, ?_, by constructor <;> decide, rfl, by decide, by decide, by decide, by decide⟩
  · intro n
    match n with
    | 0 => rfl
    | 1 => rfl
    | _ + 2 => rfl
  · intro e m h
    have hl := h (m + 2) (by omega)
    have : ∀ e, readinessPermitted left e = false := by
      intro e
      cases e <;> rfl
    rw [show healthyStates (m + 2) = left from rfl, this e] at hl
    cases hl
  · intro m h
    have hl := h (m + 2) (by omega)
    rw [show healthyStates (m + 2) = left from rfl] at hl
    cases hl
  · exact fun m => ⟨m + 1, draws0, by omega, rfl⟩
  · intro n d h
    match n, h with
    | 0, h => cases h
    | _ + 1, h => cases h

end Sys2Proof.Tests
end

section
/-! SUPPORT. Proofs about the state's views and fields (10_state.md): CLOCK_STATE as a function of CLKCTRL (R33)
and the writers of LIFECYCLE (R32). -/

namespace Sys2Proof.Machine

/-! ### CLOCK_STATE (R33) -/

/-- R33 lists ColdDefault after Running; the two exclude each other, since Running needs PLL_ON. -/
theorem clockState_coldDefault_iff (c : ClkCtrl) :
    c.clockState = .coldDefault ↔ c.sws = .internal ∧ c.pllOn = false := by
  unfold ClkCtrl.clockState
  split
  case isTrue running =>
    have pllOn : c.pllOn = true := by simp_all
    simp [pllOn]
  case isFalse =>
    split
    case isTrue cold => simpa using cold
    case isFalse notCold => simpa using notCold

theorem clockState_transitional_iff (c : ClkCtrl) :
    c.clockState = .transitional ↔ c.clockState ≠ .running ∧ c.clockState ≠ .coldDefault := by
  cases c.clockState <;> simp

/-- Settles O18: each state is tied to its own condition, and Transitional is what the other two leave. -/
theorem clockStateOfClkctrl : Obligations.ClockStateOfClkctrl := by
  intro s
  have running := clockState_running_iff s.clk
  have cold := clockState_coldDefault_iff s.clk
  have transitional := clockState_transitional_iff s.clk
  rw [ne_eq, ne_eq, running, cold] at transitional
  exact ⟨running, cold, transitional, rfl, rfl, rfl⟩

/-! ### The writers of LIFECYCLE (R32) -/

/-- No change by the environment writes LIFECYCLE. -/
theorem EnvEffect.lifecycle {s t : State} (h : EnvEffect s t) : t.lifecycle = s.lifecycle := by
  cases h <;> rfl

/-- Of the FSM's phases only SI_FIRSTBOOT writes LIFECYCLE (R110). -/
theorem FsmEffect.lifecycle {d : Draws} {s t : State} (h : FsmEffect d s t) :
    t.lifecycle = s.lifecycle ∨ (s.seqPhase = .siFirstboot ∧ t.lifecycle = .initialized) := by
  cases h
  case siFirstbootBattery at_phase _ => exact .inr ⟨at_phase, rfl⟩
  case siFirstbootExternal at_phase _ => exact .inr ⟨at_phase, rfl⟩
  case esCsBegin => exact .inl (csBegin_lifecycle s)
  case esCsEnd => exact .inl (csEnd_lifecycle _ s)
  case xsCsBegin => exact .inl (csBegin_lifecycle s)
  case xsCsEnd => exact .inl (csEnd_lifecycle _ s)
  all_goals exact .inl rfl

theorem fsmStep_siFirstboot (d : Draws) {s : State} (h : s.seqPhase = .siFirstboot) :
    fsmStep d s = some (siFirstboot s) := by
  simp only [fsmStep, h]

/-- A step that is no reset keeps LIFECYCLE, or it is SI_FIRSTBOOT's and sets it (R32). -/
theorem step_lifecycle {s t : State} (h : step s = .next t) (noReset : resets s = false) :
    t.lifecycle = s.lifecycle ∨ (s.seqPhase = .siFirstboot ∧ t.lifecycle = .initialized) := by
  cases step_effect h with
  | access _ _ _ _ _ effect => exact .inl (access_frame effect).lifecycle
  | fsm _ _ _ turn run =>
    rcases turn with ⟨_, _, rfl⟩ | ⟨_, _, rfl⟩
    · exact (fsmStep_effect run).lifecycle
    · exact (fsmStep_effect run).lifecycle
  | waits _ _ turn => rcases turn with ⟨_, _, rfl⟩ | ⟨_, _, rfl⟩ <;> exact .inl rfl
  | handler src _ _ _ _ _ _ run =>
    exact .inl ((runAccesses_frame run).lifecycle.trans (handlerEntry_lifecycle src _))
  | noHandler => exact .inl rfl
  | env e rest => exact .inl (envStep_effect e { s with agenda := rest }).lifecycle
  | reset _ _ head => simp [resets, head] at noReset

/-- Settles O30: every clause about a step follows from `step_lifecycle`. -/
theorem lifecycleWrittenOnlyByFirstboot : Obligations.LifecycleWrittenOnlyByFirstboot := by
  refine ⟨rfl, rfl, fun s t h noReset => ⟨fun initialized => ?_, fun changed => ?_⟩, fun s d at_phase => ?_⟩
  · rcases step_lifecycle h noReset with kept | ⟨_, set⟩
    · exact kept.trans initialized
    · exact set
  · exact (step_lifecycle h noReset).resolve_left changed
  · exact ⟨siFirstboot s, fsmStep_siFirstboot d at_phase, rfl⟩

end Sys2Proof.Machine
end

section
/-! SUPPORT. Proofs about accesses to the register window (20_memory.md): which register an address of the window
reaches (R61) and what a write to it does (R63). -/

namespace Sys2Proof.Machine

/-! ### Admission inside the window (R61) -/

theorem offsetOf_blockBase_add (p : Params) {off : Nat} (fits : p.blockBase.toNat + off < 2 ^ 32) :
    offsetOf p (p.blockBase + BitVec.ofNat 32 off) = some off := by
  have sum : (p.blockBase + BitVec.ofNat 32 off).toNat = p.blockBase.toNat + off := by
    rw [BitVec.toNat_add, BitVec.toNat_ofNat, Nat.add_mod_mod, Nat.mod_eq_of_lt fits]
  rw [offsetOf, sum, if_pos (Nat.le_add_right _ _), Nat.add_sub_cancel_left]

/-- A register's offset passes R61's tests on the offset. -/
theorem regAt_eq_some_aligned {off : Nat} {r : Reg} (h : regAt off = some r) : off % 4 = 0 ∧ off ≤ 0x24 := by
  unfold regAt at h
  split at h
  case h_11 => cases h
  all_goals decide

/-- A 4-byte access at an offset from the base reaches what R22 lists at that offset, or is not admitted. -/
theorem admittedReg_blockBase_add (p : Params) {off : Nat} (fits : p.blockBase.toNat + off < 2 ^ 32) :
    admittedReg p (p.blockBase + BitVec.ofNat 32 off) 4 = regAt off := by
  simp only [admittedReg, offsetOf_blockBase_add p fits]
  cases reached : regAt off with
  | none => exact ite_self none
  | some r => exact if_pos ⟨trivial, regAt_eq_some_aligned reached⟩

/-! ### Writes (R63) -/

theorem memWrite_of_ne_cmd {addr : Word} {size : Nat} {s : State} (w : Word)
    (h : admittedReg s.params addr size ≠ some .cmd) :
    memWrite addr size w s = .next (raiseFault .busError s) := by
  unfold memWrite
  split
  case h_1 isCmd => exact absurd isCmd h
  case h_2 => rfl

theorem regAt_ne_cmd {off : Nat} (h : off ≠ 0) : regAt off ≠ some .cmd := by
  unfold regAt
  split
  case h_1 => exact absurd rfl h
  all_goals exact nofun

/-- Settles O14: at the base the write reaches CMD, and no other offset of the window is CMD's. -/
theorem writeReachesOnlyCmd : Obligations.WriteReachesOnlyCmd := by
  intro s w
  refine ⟨runAction_cmdWrite s w, fun off member fits => ?_⟩
  have notBase : off ≠ 0 := ne_of_mem_of_not_mem member (by decide)
  refine memWrite_of_ne_cmd w ?_
  rw [admittedReg_blockBase_add s.params fits]
  exact regAt_ne_cmd notBase

end Sys2Proof.Machine
end

section
/-! SUPPORT. Proofs about the command words (30_encoding.md): a word decodes to a command exactly when its fields
are the command's (R80, R81), and what presenting an illegal word does (R83). -/

namespace Sys2Proof

/-! ### Decoding by fields (R80, R81) -/

theorem withoutToken_eq_ok_iff {w : Word} {i j : Instr} :
    withoutToken w i = .ok j ↔ tokenField w = 0#1 ∧ i = j := by
  unfold withoutToken
  split <;> simp [*]

/-- What a row without operand leaves: the opcode it tested and a token of 0 are the command's own fields. -/
theorem fields_of_withoutToken {w : Word} {c i : Instr} (h : withoutToken w c = .ok i)
    (op : opField w = (encodeFields c).op) (noOperand : (encodeFields c).t = 0#1) :
    opField w = (encodeFields i).op ∧ tokenField w = (encodeFields i).t := by
  obtain ⟨token, rfl⟩ := withoutToken_eq_ok_iff.1 h
  exact ⟨op, token.trans noOperand.symm⟩

/-- Eight rows without operand, then CS_END's, the one that reads its token out of the word. -/
theorem decodeOp_eq_ok {w : Word} {i : Instr} (h : decodeOp w = .ok i) :
    opField w = (encodeFields i).op ∧ tokenField w = (encodeFields i).t := by
  unfold decodeOp at h
  iterate 8
    split at h
    case isTrue op => exact fields_of_withoutToken h op rfl
  split at h
  case isTrue op => cases h; exact ⟨op, rfl⟩
  case isFalse => cases h

theorem decodeOp_of_fields {w : Word} {i : Instr} (op : opField w = (encodeFields i).op)
    (token : tokenField w = (encodeFields i).t) : decodeOp w = .ok i := by
  cases i <;> simp [decodeOp, withoutToken, op, token, encodeFields]

theorem encodeFields_rsv (i : Instr) : (encodeFields i).rsv = 0#23 := by
  cases i <;> rfl

theorem splitWord_eq_iff {w : Word} {c : Cmdw} :
    splitWord w = c ↔ opField w = c.op ∧ tokenField w = c.t ∧ reservedField w = c.rsv := by
  cases c
  rw [splitWord, Cmdw.mk.injEq]

/-- The decoder compares fields: opcode and token in `decodeOp`, the reserved bits before it. -/
theorem decodeWord_eq_ok_iff_fields {w : Word} {i : Instr} :
    decodeWord w = .ok i ↔ splitWord w = encodeFields i := by
  rw [splitWord_eq_iff, encodeFields_rsv, decodeWord]
  split
  case isTrue reserved =>
    exact ⟨fun h => have ⟨op, token⟩ := decodeOp_eq_ok h; ⟨op, token, reserved⟩,
      fun ⟨op, token, _⟩ => decodeOp_of_fields op token⟩
  case isFalse reserved => exact ⟨nofun, fun ⟨_, _, zero⟩ => absurd zero reserved⟩

/-- Splitting a word and joining its fields are inverse, so the fields of a command determine its word. -/
theorem decodeWord_eq_ok_iff {w : Word} {i : Instr} : decodeWord w = .ok i ↔ w = encodeWord i := by
  rw [decodeWord_eq_ok_iff_fields, encodeWord]
  constructor
  · intro fields
    rw [← fields, joinFields_splitWord]
  · rintro rfl
    exact splitWord_joinFields _

/-! ### The rows of the opcode map (R81) -/

/-- A row whose mask keeps every bit holds the one word its command encodes to. -/
theorem decodeWord_eq_ok_iff_fullMask {w pattern : Word} {i : Instr} (row : encodeWord i = pattern) :
    decodeWord w = .ok i ↔ w &&& 0xFFFFFFFF#32 = pattern := by
  rw [decodeWord_eq_ok_iff, row, show 0xFFFFFFFF#32 = BitVec.allOnes 32 from rfl, BitVec.and_allOnes]

/-- CS_END's row masks the token out, and the token read is bit 8 (R81, R82). -/
theorem decodeWord_eq_ok_csEnd_iff {w : Word} {t : BitVec 1} :
    decodeWord w = .ok (.csEnd t) ↔ w &&& 0xFFFFFEFF#32 = 0x00000031#32 ∧ tokenField w = t := by
  rw [decodeWord_eq_ok_iff_fields, splitWord_eq_iff, and_endMask, encodeFields, and_right_comm, and_assoc]

/-- Settles O2: the decoder is the inverse of the encoder, and each row is its command's word under the mask. -/
theorem opcodeMap : Obligations.OpcodeMap := fun _ =>
  ⟨decodeWord_eq_ok_iff_fullMask rfl, decodeWord_eq_ok_iff_fullMask rfl, decodeWord_eq_ok_iff_fullMask rfl,
    decodeWord_eq_ok_iff_fullMask rfl, decodeWord_eq_ok_iff_fullMask rfl, decodeWord_eq_ok_iff_fullMask rfl,
    decodeWord_eq_ok_iff_fullMask rfl, decodeWord_eq_ok_iff_fullMask rfl, fun _ => decodeWord_eq_ok_csEnd_iff,
    fun _ => decodeWord_eq_ok_iff⟩

/-! ### Legal words (R80, R83) -/

/-- R83's checks on the fields, as one proposition. -/
theorem Cmdw.wellFormed_iff (c : Cmdw) :
    c.wellFormed = true ↔
      c.op ∈ [0x01#8, 0x02#8, 0x03#8, 0x04#8, 0x10#8, 0x11#8, 0x20#8, 0x30#8, 0x31#8] ∧
        (c.op = 0x31#8 ∨ c.t = 0#1) ∧ c.rsv = 0#23 := by
  simp [Cmdw.wellFormed, Cmdw.opAssigned, Cmdw.tokenAllowed, Cmdw.reservedZero, or_assoc, and_assoc]

/-- A word that decodes carries a command's fields, which pass the format's checks. -/
theorem wellFormed_of_decodeWord {w : Word} {i : Instr} (h : decodeWord w = .ok i) :
    (splitWord w).wellFormed = true := by
  rw [decodeWord_eq_ok_iff_fields.1 h]
  exact encodeFields_wellFormed i

end Sys2Proof

namespace Sys2Proof.Machine

theorem presentCommand_of_not_wellFormed {w : Word} (s : State) (illegal : ¬ (splitWord w).wellFormed = true) :
    presentCommand w s = .next (raiseFault .illegalCmd s) := by
  unfold presentCommand
  cases decoded : decodeWord w with
  | ok i => exact absurd (wellFormed_of_decodeWord decoded) illegal
  | error e => rfl

/-- Settles O4: each of R83's three ways fails one of the format's checks, so the word decodes to no command. -/
theorem illegalWordRaisesIllegalCmd : Obligations.IllegalWordRaisesIllegalCmd := by
  intro s w ways
  refine presentCommand_of_not_wellFormed s fun legal => ?_
  obtain ⟨assigned, token, reserved⟩ := (splitWord w).wellFormed_iff.1 legal
  rcases ways with unassigned | nonzero | ⟨set, notEnd⟩
  · exact unassigned assigned
  · exact nonzero reserved
  · exact absurd (set.symm.trans (token.resolve_left notEnd)) (by decide)

end Sys2Proof.Machine
end

section
/-! SUPPORT. Proofs about the Power-Mode Sequencer (40_sequencer.md): the Stop-wake clock draw (R139), acceptance of
the sequence commands (R84, R100) and the phases of SYS_INIT (R102 to R111). -/

namespace Sys2Proof.Machine

/-! ### The FSM's rule by phase (R27, R28) -/

/-- The phase alone selects the FSM's rule; a rule that overwrites SEQ_PHASE answers the same on both sides. -/
theorem fsmStep_of_seqPhase (d : Draws) {s : State} {p : Phase} (at_phase : s.seqPhase = p) :
    fsmStep d s = fsmStep d { s with seqPhase := p } := by
  subst at_phase
  rfl

theorem fsmStep_idle (d : Draws) {s : State} (idle : s.seqPhase = .idle) : fsmStep d s = none :=
  fsmStep_of_seqPhase d idle

theorem fsmStep_esHalt (d : Draws) {s : State} (at_phase : s.seqPhase = .esHalt) :
    fsmStep d s = esHalt d s := by
  simp only [fsmStep, at_phase]

theorem fsmStep_siEntry (d : Draws) {s : State} (at_phase : s.seqPhase = .siEntry) :
    fsmStep d s = some (siEntry s) := by
  simp only [fsmStep, at_phase]

theorem fsmStep_siLppolicy (d : Draws) {s : State} (at_phase : s.seqPhase = .siLppolicy) :
    fsmStep d s = some (siLppolicy s) := by
  simp only [fsmStep, at_phase]

theorem fsmStep_siWdg (d : Draws) {s : State} (at_phase : s.seqPhase = .siWdg) :
    fsmStep d s = some (siWdg s) := by
  simp only [fsmStep, at_phase]

/-! ### The Stop-wake clock draw (R139) -/

/-- R139's laws on a draw: a ready or selected clock is one that is on. -/
structure WakeLaws (d : WakeDraw) : Prop where
  hseRdy : d.hseRdy = true → d.hseOn = true
  pllLock : d.pllLock = true → d.pllOn = true ∧ d.hseRdy = true
  swPll : d.swPll = true → d.pllOn = true
  swsPll : d.swsPll = true → d.pllLock = true

/-- Each bit under a law is conjoined with the bits its law asks for. -/
theorem wakeLaws_lawfulWake (d : WakeDraw) : WakeLaws (lawfulWake d) where
  hseRdy := by simp +contextual [lawfulWake]
  pllLock := by simp +contextual [lawfulWake]
  swPll := by simp +contextual [lawfulWake]
  swsPll := by simp +contextual [lawfulWake]

theorem WakeLaws.lawfulWake_eq {d : WakeDraw} (h : WakeLaws d) : lawfulWake d = d :=
  lawfulWake_of_lawful d h.hseRdy h.pllLock h.swPll h.swsPll

theorem sourceOf_decide_pll (c : ClockSource) : sourceOf (decide (c = .pll)) = c := by
  cases c <;> rfl

/-- Once issued, ES_HALT has no step but the wake (R129). -/
theorem esHalt_eq_some_of_issued {d : Draws} {s t : State} (issued : s.issued = true) (h : esHalt d s = some t) :
    ∃ src, t = stopWakeStep src d.wakeClk s := by
  rw [esHalt, if_pos issued] at h
  obtain ⟨src, _, rfl⟩ := Option.map_eq_some_iff.1 h
  exact ⟨src, rfl⟩

/-- Settles O36: the draw is made lawful before it is taken, and a lawful combination is taken as it is. -/
theorem stopWakeDraw : Obligations.StopWakeDraw := by
  refine ⟨fun s t d at_phase issued h => ?_, fun c => ⟨fun d => ?_,
    fun vr ho hr po pl sw sws ready locked follows internal => ?_⟩⟩
  · rw [fsmStep_esHalt d at_phase] at h
    obtain ⟨src, rfl⟩ := esHalt_eq_some_of_issued issued h
    rfl
  · have laws := wakeLaws_lawfulWake d
    refine ⟨laws.hseRdy, laws.pllLock, fun pll => laws.swsPll ((sourceOf_eq_pll _).1 pll), fun off => ?_,
      rfl, rfl, rfl, rfl, rfl, rfl, rfl⟩
    have notPll : (lawfulWake d).swPll = false :=
      Bool.eq_false_iff.2 fun pll => Bool.eq_false_iff.1 off (laws.swPll pll)
    exact congrArg sourceOf notPll
  · have switched : decide (sw = .pll) = true → po = true := fun pll =>
      eq_true_of_ne_false fun off => nomatch (internal off).symm.trans (of_decide_eq_true pll)
    refine ⟨⟨vr, ho, hr, po, pl, decide (sw = .pll), decide (sws = .pll)⟩, ?_⟩
    rw [ClkCtrl.afterWake,
      WakeLaws.lawfulWake_eq ⟨ready, locked, switched, fun pll => follows (of_decide_eq_true pll)⟩]
    simp only [sourceOf_decide_pll]

/-! ### Acceptance of the sequence commands (R84, R100) -/

/-- The command whose sequence CUR_CMD names. -/
def SeqOp.instr : SeqOp → Instr
  | .sysInit => .sysInit
  | .enterSleep => .enterSleep
  | .enterStop => .enterStop
  | .exitStop => .exitStop
  | .clkCold => .clkCold
  | .clkResume => .clkResume
  | .calibrate => .calibrate

/-- The meaning of a sequence command is its acceptance. -/
theorem exec_instr (op : SeqOp) (s : State) : exec op.instr s = .next (accept op s) := by
  cases op <;> rfl

theorem accept_of_busy (op : SeqOp) {s : State} (busy : s.seqPhase ≠ .idle) :
    accept op s = raiseFault .cmdBusy s :=
  if_pos ((busy_eq_true s).2 busy)

theorem accept_of_uninitialized {op : SeqOp} {s : State} (idle : s.seqPhase = .idle)
    (needs : needsInitialized op = true) (fresh : s.lifecycle = .uninitialized) :
    accept op s = raiseFault .stateError s := by
  simp [accept, (busy_eq_false s).2 idle, needs, fresh]

theorem accept_of_ready {op : SeqOp} {s : State} (idle : s.seqPhase = .idle)
    (ready : needsInitialized op = true → s.lifecycle = .initialized) : accept op s = start op s := by
  rcases accept_cases op s with ⟨busy, _⟩ | ⟨_, needs, fresh, _⟩ | ⟨_, _, started⟩
  · exact absurd idle ((busy_eq_true s).1 busy)
  · cases fresh.symm.trans (ready needs)
  · exact started

theorem exec_instr_of_ready {op : SeqOp} {s : State} (idle : s.seqPhase = .idle)
    (ready : needsInitialized op = true → s.lifecycle = .initialized) : exec op.instr s = .next (start op s) :=
  (exec_instr op s).trans (congrArg _ (accept_of_ready idle ready))

theorem presentCommand_of_decodeWord {w : Word} {i : Instr} (s : State) (decoded : decodeWord w = .ok i) :
    presentCommand w s = exec i s := by
  rw [presentCommand, decoded]

/-- Settles O7: the clauses are the cases of `accept`, and the write of a word presents it. -/
theorem commandAcceptance : Obligations.CommandAcceptance := by
  intro s
  refine ⟨fun d => fsmStep_idle d, fun idle => ?_, fun idle initialized => ?_, fun idle fresh => ?_,
    fun busy => ?_, fun w i decoded => ?_⟩
  · have accepted (op : SeqOp) (free : needsInitialized op = false) : exec op.instr s = .next (start op s) :=
      exec_instr_of_ready idle fun needs => by cases free.symm.trans needs
    exact ⟨accepted .sysInit rfl, accepted .enterSleep rfl, accepted .clkCold rfl, accepted .clkResume rfl,
      accepted .calibrate rfl⟩
  · have accepted (op : SeqOp) : exec op.instr s = .next (start op s) := exec_instr_of_ready idle fun _ => initialized
    exact ⟨accepted .enterStop, accepted .exitStop⟩
  · have refused (op : SeqOp) (needs : needsInitialized op = true) :
        exec op.instr s = .next (raiseFault .stateError s) :=
      (exec_instr op s).trans (congrArg _ (accept_of_uninitialized idle needs fresh))
    exact List.forall_mem_cons.2 ⟨refused .enterStop rfl, List.forall_mem_singleton.2 (refused .exitStop rfl)⟩
  · have refused (op : SeqOp) : exec op.instr s = .next (raiseFault .cmdBusy s) :=
      (exec_instr op s).trans (congrArg _ (accept_of_busy op busy))
    exact (List.forall_mem_map (f := SeqOp.instr)
      (l := [.sysInit, .enterSleep, .enterStop, .exitStop, .clkCold, .clkResume, .calibrate])).2 fun op _ => refused op
  · exact (runAction_cmdWrite s w).trans (presentCommand_of_decodeWord s decoded)

/-! ### The phases of SYS_INIT (R102 to R111) -/

theorem isBattery_eq_true (p : PowerSource) : isBattery p = true ↔ p = .batteryPower :=
  decide_eq_true_iff

/-- Settles O48: a clause about the phase alone is the phase's rule, which overwrites SEQ_PHASE; in a clause that
names a condition too, the condition selects the rule's branch. -/
theorem sysInitPhases : Obligations.SysInitPhases := by
  intro s d
  have byPhase {p : Phase} : s.seqPhase = p → fsmStep d s = fsmStep d { s with seqPhase := p } :=
    fsmStep_of_seqPhase d
  refine ⟨fun at_phase fresh => ?_, fun at_phase initialized => ?_, byPhase, byPhase, byPhase, byPhase,
    fun at_phase battery => ?_, fun at_phase external => ?_, byPhase, byPhase, fun at_phase => ?_,
    fun at_phase exit => ?_, fun at_phase notExit => ?_⟩
  · simp [fsmStep_siEntry d at_phase, siEntry, fresh]
  · simp [fsmStep_siEntry d at_phase, siEntry, initialized]
  · simp [fsmStep_siLppolicy d at_phase, siLppolicy, isBattery, battery]
  · simp [fsmStep_siLppolicy d at_phase, siLppolicy, isBattery, external]
  · simp only [fsmStep_siFirstboot d at_phase, siFirstboot, isBattery_eq_true]
  · rw [fsmStep_siWdg d at_phase, siWdg, if_pos exit, goto]
  · rw [fsmStep_siWdg d at_phase, siWdg, if_neg notExit, done]

end Sys2Proof.Machine
end

section
/-! SUPPORT. Proofs about the clock (41_clock.md): what a step can do to CLKCTRL, that the clock keeps running (R166)
and the PLL its one configuration (R158), the completion of the cold steps (R152) and the resume phases (R161 to
R164). -/

namespace Sys2Proof.Machine

/-! ### What a step does to CLKCTRL (R139, R151 to R164, R175) -/

/-- What CLKCTRL, now `c`, can become in a step that is no reset, from phase `p` with ISSUED as given to phase `q`;
when the environment may raise a flag is `EnvEffect`'s to say. -/
inductive ClkEffect (p : Phase) (issued : Bool) (c : ClkCtrl) (q : Phase) : ClkCtrl → Prop where
  | kept {c' : ClkCtrl} (same : c' = c) : ClkEffect p issued c q c'
  | vosFull : ClkEffect p issued c q { c with vosFull := true }
  | oscillators : ClkEffect p issued c q { c with hseOn := true, lseOn := true }
  | hseOn : ClkEffect p issued c q { c with hseOn := true }
  | pllOn (at_phase : p = .ccPll ∨ p = .crPll) (fresh : issued = false) :
      ClkEffect p issued c q { c with pllSrcHse := true, pllOn := true }
  | sysclk : ClkEffect p issued c q { c with sw := .pll, busdivSet := true }
  | sw : ClkEffect p issued c q { c with sw := .pll }
  | rtcselLse : ClkEffect p issued c q { c with rtcselLse := true }
  | systickOn : ClkEffect p issued c q { c with systickOn := true }
  | stopWake (d : WakeDraw) (halted : p = .esHalt) (woken : q = .xsCsBegin) :
      ClkEffect p issued c q (c.afterWake d)
  | vosRdy : ClkEffect p issued c q { c with vosRdy := true }
  | hseRdy : ClkEffect p issued c q { c with hseRdy := true }
  | lseRdy : ClkEffect p issued c q { c with lseRdy := true }
  | pllLock : ClkEffect p issued c q { c with pllLock := true }
  | sws : ClkEffect p issued c q { c with sws := c.sw }

/-- Of the FSM's steps only the issue steps, CC_SYSTICK and the Stop wake write CLKCTRL. -/
theorem FsmEffect.clkEffect {d : Draws} {s t : State} (h : FsmEffect d s t) :
    ClkEffect s.seqPhase s.issued s.clk t.seqPhase t.clk := by
  cases h
  case ccVosIssue => exact .vosFull
  case crVosIssue => exact .vosFull
  case ccOscIssue => exact .oscillators
  case crHseIssue => exact .hseOn
  case ccPllIssue at_phase fresh => exact .pllOn (.inl at_phase) fresh
  case crPllIssue at_phase fresh => exact .pllOn (.inr at_phase) fresh
  case ccSysclkIssue => exact .sysclk
  case crSwIssue => exact .sw
  case ccRtcclkIssue => exact .rtcselLse
  case ccSystickInit => exact .systickOn
  case ccSystickDone => exact .systickOn
  case stopWake at_phase _ _ => exact .stopWake d.wakeClk at_phase rfl
  case esCsBegin => exact .kept (csBegin_clk s)
  case xsCsBegin => exact .kept (csBegin_clk s)
  case esCsEnd => exact .kept (csEnd_clk _ s)
  case xsCsEnd => exact .kept (csEnd_clk _ s)
  all_goals exact .kept rfl

theorem EnvEffect.clkEffect {s t : State} (h : EnvEffect s t) :
    ClkEffect s.seqPhase s.issued s.clk t.seqPhase t.clk := by
  cases h
  case vosRdy => exact .vosRdy
  case hseRdy => exact .hseRdy
  case lseRdy => exact .lseRdy
  case pllLock => exact .pllLock
  case sws => exact .sws
  all_goals exact .kept rfl

theorem step_clkEffect {s t : State} (h : step s = .next t) (noReset : resets s = false) :
    ClkEffect s.seqPhase s.issued s.clk t.seqPhase t.clk := by
  cases step_effect h with
  | access _ _ _ _ _ effect => exact .kept (access_frame effect).clk
  | fsm _ _ _ turn run =>
    rcases turn with ⟨_, _, rfl⟩ | ⟨_, _, rfl⟩
    · exact (fsmStep_effect run).clkEffect
    · exact (fsmStep_effect run).clkEffect
  | waits _ _ turn => rcases turn with ⟨_, _, rfl⟩ | ⟨_, _, rfl⟩ <;> exact .kept rfl
  | handler src _ _ _ _ _ _ run => exact .kept ((runAccesses_frame run).clk.trans (handlerEntry_clk src _))
  | noHandler => exact .kept rfl
  | env e rest => exact (envStep_effect e { s with agenda := rest }).clkEffect
  | reset _ _ head => simp [resets, head] at noReset

/-! ### The rules of the clock phases (R27) -/

section
variable (d : Draws) {s : State}

theorem fsmStep_ccVos (at_phase : s.seqPhase = .ccVos) : fsmStep d s = ccVos d s := by
  simp only [fsmStep, at_phase]

theorem fsmStep_ccOsc (at_phase : s.seqPhase = .ccOsc) : fsmStep d s = ccOsc d s := by
  simp only [fsmStep, at_phase]

theorem fsmStep_ccPll (at_phase : s.seqPhase = .ccPll) : fsmStep d s = ccPll d s := by
  simp only [fsmStep, at_phase]

theorem fsmStep_ccSysclk (at_phase : s.seqPhase = .ccSysclk) : fsmStep d s = ccSysclk d s := by
  simp only [fsmStep, at_phase]

theorem fsmStep_ccRtcclk (at_phase : s.seqPhase = .ccRtcclk) : fsmStep d s = ccRtcclk d s := by
  simp only [fsmStep, at_phase]

theorem fsmStep_crVos (at_phase : s.seqPhase = .crVos) : fsmStep d s = crVos s := by
  simp only [fsmStep, at_phase]

theorem fsmStep_crHse (at_phase : s.seqPhase = .crHse) : fsmStep d s = crHse s := by
  simp only [fsmStep, at_phase]

theorem fsmStep_crPll (at_phase : s.seqPhase = .crPll) : fsmStep d s = crPll s := by
  simp only [fsmStep, at_phase]

theorem fsmStep_crSw (at_phase : s.seqPhase = .crSw) : fsmStep d s = crSw s := by
  simp only [fsmStep, at_phase]

end

/-! ### The switch to the PLL (R164) -/

section
variable {s : State}

theorem crSw_of_fresh (fresh : s.issued = false) : crSw s = some (crSwIssue s) := by
  simp [crSw, fresh]

theorem crSw_of_switched (issued : s.issued = true) (switched : s.clk.sws = .pll) : crSw s = some (crSwDone s) := by
  simp [crSw, issued, switched]

theorem crSw_of_unswitched (issued : s.issued = true) (unswitched : s.clk.sws = .internal) : crSw s = none := by
  simp [crSw, issued, unswitched]

theorem crSwDone_clk (s : State) : (crSwDone s).clk = s.clk := by
  unfold crSwDone
  split <;> rfl

/-- CR_SW stays in its phase in the issue step, so a step that leaves it is the completion. -/
theorem crSw_leaves {t : State} (at_phase : s.seqPhase = .crSw) (h : crSw s = some t) (left : t.seqPhase ≠ .crSw) :
    s.issued = true ∧ s.clk.sws = .pll ∧ t = crSwDone s := by
  cases issued : s.issued with
  | false =>
    rw [crSw_of_fresh issued] at h
    cases h
    exact absurd at_phase left
  | true =>
    cases sws : s.clk.sws with
    | internal => cases (crSw_of_unswitched issued sws).symm.trans h
    | pll =>
      rw [crSw_of_switched issued sws] at h
      cases h
      exact ⟨rfl, rfl, rfl⟩

end

/-! ### CLOCK_STATE = Running (R166) -/

/-- Once the switch is observed, every enable and every flag it depends on is set. -/
theorem ClockInv.running_of_switched {s : State} (inv : ClockInv s)
    (at_phase : s.seqPhase = .ccSysclk ∨ s.seqPhase = .crSw) (issued : s.issued = true)
    (switched : s.clk.sws = .pll) : clockState s = .running := by
  obtain ⟨locked, source⟩ := inv.switch_after_lock at_phase
  obtain ⟨pllOn, hseRdy⟩ := inv.lock locked
  exact (clockState_running_iff s.clk).2
    ⟨inv.hse hseRdy, hseRdy, pllOn, locked, source, inv.switch_issued at_phase issued, switched⟩

/-- Nothing but the Stop wake clears an enable or a flag, and SWS follows an SW that is PLL. -/
theorem ClkEffect.running {p q : Phase} {issued : Bool} {c c' : ClkCtrl} (h : ClkEffect p issued c q c')
    (noWake : ¬ (p = .esHalt ∧ q = .xsCsBegin)) (running : c.clockState = .running) : c'.clockState = .running := by
  rw [clockState_running_iff] at running ⊢
  obtain ⟨hseOn, hseRdy, pllOn, locked, source, sw, sws⟩ := running
  cases h
  case kept same => exact same ▸ ⟨hseOn, hseRdy, pllOn, locked, source, sw, sws⟩
  case stopWake halted woken => exact absurd ⟨halted, woken⟩ noWake
  case oscillators => exact ⟨rfl, hseRdy, pllOn, locked, source, sw, sws⟩
  case hseOn => exact ⟨rfl, hseRdy, pllOn, locked, source, sw, sws⟩
  case hseRdy => exact ⟨hseOn, rfl, pllOn, locked, source, sw, sws⟩
  case pllOn => exact ⟨hseOn, hseRdy, rfl, locked, rfl, sw, sws⟩
  case pllLock => exact ⟨hseOn, hseRdy, pllOn, rfl, source, sw, sws⟩
  case sysclk => exact ⟨hseOn, hseRdy, pllOn, locked, source, rfl, sws⟩
  case sw => exact ⟨hseOn, hseRdy, pllOn, locked, source, rfl, sws⟩
  case sws => exact ⟨hseOn, hseRdy, pllOn, locked, source, sw, sw⟩
  all_goals exact ⟨hseOn, hseRdy, pllOn, locked, source, sw, sws⟩

/-- Settles O41: the invariant gives Running at CC_SYSTICK and once CR_SW has seen the switch, and a step that is
neither a reset nor the Stop wake keeps it. -/
theorem runningUntilStopOrReset : Obligations.RunningUntilStopOrReset := by
  refine ⟨fun s inv at_phase => inv.running_after_switch (.inr at_phase),
    fun s t d inv at_phase h left => ?_,
    fun s t running h noReset stays => (step_clkEffect h noReset).running stays running⟩
  rw [fsmStep_crSw d at_phase] at h
  obtain ⟨issued, switched, rfl⟩ := crSw_leaves at_phase h left
  rw [clockState, crSwDone_clk]
  exact inv.running_of_switched (.inr at_phase) issued switched

/-! ### The PLL's configuration (R158) -/

theorem FsmEffect.params {d : Draws} {s t : State} (h : FsmEffect d s t) : t.params = s.params := by
  cases h
  case esCsBegin => exact csBegin_params s
  case xsCsBegin => exact csBegin_params s
  case esCsEnd => exact csEnd_params _ s
  case xsCsEnd => exact csEnd_params _ s
  all_goals rfl

theorem EnvEffect.params {s t : State} (h : EnvEffect s t) : t.params = s.params := by
  cases h <;> rfl

/-- No step of any agent changes the parameters (R9). -/
theorem step_params {s t : State} (h : step s = .next t) : t.params = s.params :=
  step_keeps (fun u => u.params = s.params) (fun _ _ kept => kept) (fun _ _ kept => kept)
    (fun _ _ effect kept => (access_frame effect).params.trans kept)
    (fun _ _ _ run kept => (fsmStep_effect run).params.trans kept)
    (fun src u _ kept => (handlerEntry_params src u).trans kept)
    (fun e u kept => (envStep_effect e u).params.trans kept) (fun _ _ kept => kept) s t h rfl

theorem pllRatio_of_pllOn {s : State} (on : s.clk.pllOn = true) :
    pllRatio s = some (s.params.pllMul, s.params.pllDiv) :=
  if_pos on

/-- CC_PLL and CR_PLL have one issue step. -/
theorem fsmStep_pllIssue (d : Draws) {s : State} (at_phase : s.seqPhase = .ccPll ∨ s.seqPhase = .crPll)
    (fresh : s.issued = false) : fsmStep d s = some (pllIssue s) := by
  rcases at_phase with cold | resume
  · simp [fsmStep_ccPll d cold, ccPll, fresh]
  · simp [fsmStep_crPll d resume, crPll, fresh]

/-- Nothing but the Stop wake clears PLL_ON, and only the PLL's issue step, which selects HSE, sets it. -/
theorem ClkEffect.pllOn_cases {p q : Phase} {issued : Bool} {c c' : ClkCtrl} (h : ClkEffect p issued c q c')
    (noWake : ¬ (p = .esHalt ∧ q = .xsCsBegin)) :
    c'.pllOn = c.pllOn ∨
      ((p = .ccPll ∨ p = .crPll) ∧ issued = false ∧ c'.pllOn = true ∧ c'.pllSrcHse = true) := by
  cases h
  case kept same => exact .inl (congrArg _ same)
  case stopWake halted woken => exact absurd ⟨halted, woken⟩ noWake
  case pllOn at_phase fresh => exact .inr ⟨at_phase, fresh, rfl, rfl⟩
  all_goals exact .inl rfl

/-- Settles O47: the two issue steps are `pllIssue`, and a step that is neither a reset nor the Stop wake leaves PLL_ON
alone or is one of them. -/
theorem pllConfiguration : Obligations.PllConfiguration := by
  refine ⟨fun s d at_phase fresh => ⟨pllIssue s, fsmStep_pllIssue d at_phase fresh, rfl, rfl, rfl⟩,
    fun s t h noReset stays => ?_⟩
  rcases (step_clkEffect h noReset).pllOn_cases stays with same | ⟨at_phase, fresh, on, source⟩
  · exact ⟨same.trans, fun off on => nomatch off.symm.trans (same.symm.trans on)⟩
  · exact ⟨fun _ => on, fun _ _ => ⟨at_phase, fresh, source, step_params h ▸ pllRatio_of_pllOn on⟩⟩

/-! ### The completion of the cold steps (R152) -/

/-- The table of R152: step number, phase, condition, what the completion observes, successor. -/
def coldSteps (c : ClkCtrl) : List (Nat × Phase × Bool × List LogEvent × Phase) :=
  [(1, .ccVos, c.vosRdy, [.observed .vosRdy], .ccOsc),
   (2, .ccOsc, c.hseRdy && c.lseRdy, [.observed .hseLseRdy], .ccPll),
   (3, .ccPll, c.pllLock, [.observed .pllLock], .ccSysclk),
   (4, .ccSysclk, decide (c.sws = .pll), [.observed .swsPll], .ccRtcclk),
   (5, .ccRtcclk, true, [], .ccSystick)]

section
variable {d : Draws} {s : State} {k : Nat} {p succ : Phase} {cond : Bool} {seen : List LogEvent}

/-- Once issued, the rule of each of the five phases is the completion with its row of the table. -/
theorem fsmStep_coldSteps (row : (k, p, cond, seen, succ) ∈ coldSteps s.clk) (at_phase : s.seqPhase = p)
    (issued : s.issued = true) : fsmStep d s = coldComplete k cond seen succ d s := by
  simp only [coldSteps, List.mem_cons, Prod.mk.injEq, List.not_mem_nil, or_false] at row
  rcases row with ⟨rfl, rfl, rfl, rfl, rfl⟩ | ⟨rfl, rfl, rfl, rfl, rfl⟩ | ⟨rfl, rfl, rfl, rfl, rfl⟩ |
    ⟨rfl, rfl, rfl, rfl, rfl⟩ | ⟨rfl, rfl, rfl, rfl, rfl⟩
  · exact (fsmStep_ccVos d at_phase).trans (if_pos issued)
  · exact (fsmStep_ccOsc d at_phase).trans (if_pos issued)
  · exact (fsmStep_ccPll d at_phase).trans (if_pos issued)
  · exact (fsmStep_ccSysclk d at_phase).trans (if_pos issued)
  · exact (fsmStep_ccRtcclk d at_phase).trans (if_pos issued)

theorem coldComplete_fail (fail : d.status = some .fail) :
    coldComplete k cond seen succ d s = some (coldFail k s) := by
  simp only [coldComplete, fail]

theorem coldComplete_ok (ok : d.status = some .ok) :
    coldComplete k cond seen succ d s = if cond then some (coldOk k seen succ s) else none := by
  simp only [coldComplete, ok]

theorem coldComplete_of_no_status (absent : d.status = none) : coldComplete k cond seen succ d s = none := by
  simp only [coldComplete, absent]

/-- A FAIL logs three events: the status, the fault, the trap. -/
theorem coldFail_eq (k : Nat) (s : State) : coldFail k s = { s with evt := s.evt ++ [.status k .fail, .fault .clkCfgFail, .fatal], fault := { s.fault with clkCfgFail := true }, issued := false, seqPhase := .fatal } := by
  simp [coldFail, raiseFault, log, FaultBits.set]

end

/-- Settles O44: in all five phases the completion is `coldComplete`, which branches on the status. -/
theorem coldStepCompletion : Obligations.ColdStepCompletion := by
  intro s d k p succ cond seen row at_phase issued
  rw [fsmStep_coldSteps row at_phase issued]
  refine ⟨fun fail => ?_, fun ok met => ?_, fun ok unmet => ?_, fun absent => coldComplete_of_no_status absent⟩
  · rw [coldComplete_fail fail, coldFail_eq]
  · rw [coldComplete_ok ok, if_pos met, coldOk]
  · rw [coldComplete_ok ok, if_neg (Bool.eq_false_iff.1 unmet)]

/-! ### The resume phases (R161 to R164) -/

section
/- The rule CR_VOS, CR_HSE and CR_PLL share: issue, then wait for the flag. -/
variable {s issue : State} {rule : Option State} {flag : Bool} {seen : Cond} {succ : Phase}
  (is_rule : rule = if s.issued then resumeComplete flag seen succ s else some issue)
include is_rule

theorem resumeRule_issue (fresh : s.issued = false) : rule = some issue := by
  rw [is_rule, if_neg (Bool.eq_false_iff.1 fresh)]

theorem resumeRule_complete (issued : s.issued = true) (met : flag = true) :
    rule = some { s with evt := s.evt ++ [.observed seen], issued := false, seqPhase := succ } := by
  rw [is_rule, if_pos issued, resumeComplete, if_pos met]

theorem resumeRule_wait (issued : s.issued = true) (unmet : flag = false) : rule = none := by
  rw [is_rule, if_pos issued, resumeComplete, if_neg (Bool.eq_false_iff.1 unmet)]

end

/-- Settles O46: the first three phases share one rule, and CR_SW's completion branches on CUR_CMD. -/
theorem resumePhases : Obligations.ResumePhases := by
  intro s d
  refine ⟨fun at_phase => resumeRule_issue (fsmStep_crVos d at_phase),
    fun at_phase => resumeRule_complete (fsmStep_crVos d at_phase),
    fun at_phase => resumeRule_wait (fsmStep_crVos d at_phase),
    fun at_phase => resumeRule_issue (fsmStep_crHse d at_phase),
    fun at_phase => resumeRule_complete (fsmStep_crHse d at_phase),
    fun at_phase => resumeRule_wait (fsmStep_crHse d at_phase),
    fun at_phase => resumeRule_issue (fsmStep_crPll d at_phase),
    fun at_phase => resumeRule_complete (fsmStep_crPll d at_phase),
    fun at_phase => resumeRule_wait (fsmStep_crPll d at_phase),
    fun at_phase fresh => (fsmStep_crSw d at_phase).trans (crSw_of_fresh fresh),
    fun at_phase issued switched goes_on => ?_, fun at_phase issued switched returns => ?_,
    fun at_phase issued unswitched => (fsmStep_crSw d at_phase).trans (crSw_of_unswitched issued unswitched)⟩
  · rw [fsmStep_crSw d at_phase, crSw_of_switched issued switched, crSwDone, if_pos goes_on, goto]
  · rw [fsmStep_crSw d at_phase, crSw_of_switched issued switched, crSwDone, if_neg returns, done]

end Sys2Proof.Machine
end

section
/-! SUPPORT. Proofs about the Wake-Latency Calibrator (42_calibrator.md): the rule of each of its phases (R191 to
R194) and its return (R195). -/

namespace Sys2Proof.Machine

/-! ### The rules of the calibrator's phases (R27) -/

section
variable (d : Draws) {s : State}

theorem fsmStep_calCheck (at_phase : s.seqPhase = .calCheck) : fsmStep d s = some (calCheck s) := by
  simp only [fsmStep, at_phase]

theorem fsmStep_calWait (at_phase : s.seqPhase = .calWait) : fsmStep d s = calWait s := by
  simp only [fsmStep, at_phase]

theorem fsmStep_calRecord (at_phase : s.seqPhase = .calRecord) : fsmStep d s = some (calRecord d s) := by
  simp only [fsmStep, at_phase]

end

/-! ### Their branches (R191, R193, R195) -/

section
variable {s : State}

theorem calReturn_of_sysInit (init : s.curCmd = some .sysInit) : calReturn s = goto .siWdg s :=
  if_pos init

theorem calReturn_of_ne_sysInit (other : s.curCmd ≠ some .sysInit) : calReturn s = done s :=
  if_neg other

theorem calCheck_of_calibrated (calibrated : s.calState = .calibrated) : calCheck s = calReturn s :=
  if_pos calibrated

theorem calCheck_of_ne_calibrated (notYet : s.calState ≠ .calibrated) : calCheck s = goto .calArm s :=
  if_neg notYet

theorem calWait_of_calDone (timerDone : s.cal.calDone = true) : calWait s = some (goto .calRecord s) :=
  if_pos timerDone

theorem calWait_of_not_calDone (pending : s.cal.calDone = false) : calWait s = none :=
  if_neg (Bool.eq_false_iff.1 pending)

end

/-- Settles O51: CAL_ARM has one branch; elsewhere the clause's condition selects the branch of the phase's rule.
CAL_RECORD's writes leave CUR_CMD alone, so its return branches on the command as it stood. -/
theorem calibratorPhases : Obligations.CalibratorPhases := by
  intro s d
  refine ⟨fun at_phase calibrated init => ?_, fun at_phase calibrated other => ?_, fun at_phase notYet => ?_,
    fsmStep_of_seqPhase d,
    fun at_phase timerDone => (fsmStep_calWait d at_phase).trans (calWait_of_calDone timerDone),
    fun at_phase pending => (fsmStep_calWait d at_phase).trans (calWait_of_not_calDone pending),
    fun at_phase init => ?_, fun at_phase other => ?_⟩
  · rw [fsmStep_calCheck d at_phase, calCheck_of_calibrated calibrated, calReturn_of_sysInit init, goto]
  · rw [fsmStep_calCheck d at_phase, calCheck_of_calibrated calibrated, calReturn_of_ne_sysInit other, done]
  · rw [fsmStep_calCheck d at_phase, calCheck_of_ne_calibrated notYet, goto]
  · rw [fsmStep_calRecord d at_phase, calRecord, calReturn_of_sysInit, goto]
    exact init
  · rw [fsmStep_calRecord d at_phase, calRecord, calReturn_of_ne_sysInit, done]
    exact other

end Sys2Proof.Machine
end

section
/-! SUPPORT. Proofs about reset (70_reset_and_hazards.md): what the register words and the derived flags read after a
reset, and R271's table. -/

namespace Sys2Proof.Machine

/-! ### What a reset leaves in the views that are no stored field (R33, R46, R270) -/

section
variable (d : ResetDraws) (s : State)

theorem busy_resetWith : busy (resetWith d s) = false :=
  (busy_eq_false _).2 rfl

/-- SWS falls to Internal and PLL_ON to 0, whatever the drawn ready flags are. -/
theorem clockState_resetWith : clockState (resetWith d s) = .coldDefault :=
  (clockState_coldDefault_iff _).2 ⟨rfl, rfl⟩

theorem pending_get_resetWith (src : Source) : (resetWith d s).pending.get src = false := by
  cases src <;> rfl

/-- ENABLE.SYSTICK is SYSTICK_ON, which a reset clears; it is not among the drawn enables. -/
theorem enabled_sysTick_resetWith : enabled (resetWith d s) .sysTick = false := rfl

theorem faultWord_zero : faultWord FaultBits.zero = 0#32 := by decide

theorem periphWord_resetWith : periphWord (resetWith d s).periph = 0#32 := by
  simp [resetWith, periphWord, bitAt, fieldAt]

theorem calWord_resetWith : calWord (resetWith d s).cal = 0#32 := by
  simp [resetWith, calWord, bitAt, fieldAt]

theorem instrWord_resetWith : instrWord (resetWith d s).counters = 0#32 := by
  simp [resetWith, instrWord, fieldAt]

end

/-- A reset at the head of the agenda is the machine's next step. -/
theorem step_of_reset {s : State} {d : ResetDraws} {rest : List Action} (head : s.agenda = .reset d :: rest) :
    step s = .next (resetWith d { s with agenda := rest }) := by
  rw [step_of_agenda head, runAction]

/-- Settles O19: a stored field holds what `resetWith` writes; the words and the derived flags are the lemmas above. -/
theorem resetLeavesTheTable : Obligations.ResetLeavesTheTable := by
  intro s d rest head
  refine ⟨resetWith d { s with agenda := rest }, step_of_reset head,
    -- The sequencer, the critical section and FAULT.
    rfl, busy_resetWith d _, rfl, rfl, rfl, rfl, rfl, rfl, rfl, rfl, rfl, rfl, faultWord_zero,
    -- CLKCTRL.
    rfl, rfl, rfl, rfl, rfl, rfl, rfl, rfl, rfl, rfl, rfl, rfl, rfl, rfl,
    -- PWRCTRL, PERIPH and IRQ.
    rfl, periphWord_resetWith d _, pending_get_resetWith d _, rfl, enabled_sysTick_resetWith d _,
    -- The calibrator, the counters, the buffers, EVT and CLOCK_STATE.
    calWord_resetWith d _, instrWord_resetWith d _, rfl, rfl, rfl, rfl, clockState_resetWith d _⟩

end Sys2Proof.Machine
end

section
/-! SUPPORT. Proofs about the encoding of commands (30_encoding.md): decoding inverts encoding (R80 to R82), and the
words of the table decode (R81, R83). -/

namespace Sys2Proof

theorem decodeWord_encodeWord (i : Instr) : decodeWord (encodeWord i) = .ok i :=
  decodeWord_eq_ok_iff.2 rfl

/-- Settles O1: the decoder accepts a command's word, and reading a word's bytes gives the word back. -/
theorem decodeOfEncode : Obligations.DecodeOfEncode := by
  refine fun i rest => ⟨decodeWord_encodeWord i, ?_, rfl⟩
  rw [decode_bytesOfWord, decodeWord_encodeWord]

/-- Settles O3: sixteen fixed words, run through the byte decoder. -/
theorem tableWordsDecode : Obligations.TableWordsDecode := by
  unfold Obligations.TableWordsDecode
  decide

end Sys2Proof
end

section
/-! SUPPORT. A step of the machine that is no reset as a step of one agent, taken in the same block: what later proofs
about every step are cases of. -/

namespace Sys2Proof.Machine

/-- What one agent's step does, from `u`. -/
inductive AgentEffect (u : State) : State → Prop where
  | fsm (d : Draws) (t : State) (effect : FsmEffect d u t) : AgentEffect u t
  | env (t : State) (effect : EnvEffect u t) : AgentEffect u t
  | access (t : State) (effect : AccessEffect u t) : AgentEffect u t
  | handler (src : Source) (body : List Access) (t : State) (enabled : handlerEnabled u src = true)
      (run : runAccesses body (handlerEntry src u) = .next t) : AgentEffect u t
  | unchanged : AgentEffect u u

/-- The agenda and the free-value counter move on, then one agent takes its step. -/
theorem step_agent {s t : State} (h : step s = .next t) (noReset : resets s = false) :
    ∃ a n, AgentEffect { s with agenda := a, tick := n } t := by
  cases step_effect h with
  | access a rest head t run effect => exact ⟨rest, s.tick, .access t effect⟩
  | fsm d u t turn run =>
    rcases turn with ⟨rest, _, rfl⟩ | ⟨_, _, rfl⟩
    · exact ⟨rest, s.tick, .fsm d t (fsmStep_effect run)⟩
    · exact ⟨s.agenda, s.tick + 1, .fsm d t (fsmStep_effect run)⟩
  | waits d u turn =>
    rcases turn with ⟨rest, _, rfl⟩ | ⟨_, _, rfl⟩
    · exact ⟨rest, s.tick, .unchanged⟩
    · exact ⟨s.agenda, s.tick + 1, .unchanged⟩
  | handler src body rest head t enabled allowed run => exact ⟨rest, s.tick, .handler src body t enabled run⟩
  | noHandler src body rest => exact ⟨rest, s.tick, .unchanged⟩
  | env e rest => exact ⟨rest, s.tick, .env _ (envStep_effect e { s with agenda := rest })⟩
  | reset _ _ head => simp [resets, head] at noReset

end Sys2Proof.Machine
end

section
/-! SUPPORT. Proofs about the sequencer's control (R27 to R30, R34): who writes SEQ_PHASE, CUR_CMD, ISSUED and POWER_MODE,
and the invariant that ties them together. -/

namespace Sys2Proof.Machine

/-! ### Software and the environment -/

/-- The step leaves the running command where it is. -/
structure SameControl (s t : State) : Prop where
  seqPhase : t.seqPhase = s.seqPhase
  curCmd : t.curCmd = s.curCmd
  issued : t.issued = s.issued

/-- The step accepts a sequence command (R100). -/
structure Accepted (op : SeqOp) (s t : State) : Prop where
  idle : s.seqPhase = .idle
  ready : needsInitialized op = true → s.lifecycle = .initialized
  seqPhase : t.seqPhase = firstPhase op
  curCmd : t.curCmd = some op
  issued : t.issued = false

/-- An access moves the sequencer only by a command's acceptance (R72, R84). -/
theorem AccessEffect.control {s t : State} (h : AccessEffect s t) : SameControl s t ∨ ∃ op, Accepted op s t := by
  cases h with
  | reads | badRead | badWrite => exact .inl ⟨rfl, rfl, rfl⟩
  | commands _ e =>
    cases e with
    | faulted | begun | ended => exact .inl ⟨rfl, rfl, rfl⟩
    | started op idle ready => exact .inr ⟨op, idle, ready, rfl, rfl, rfl⟩

theorem handlerEntry_control (src : Source) (s : State) : SameControl s (handlerEntry src s) :=
  ⟨handlerEntry_seqPhase src s, handlerEntry_curCmd src s, handlerEntry_issued src s⟩

theorem EnvEffect.control {s t : State} (h : EnvEffect s t) : SameControl s t := by
  cases h <;> exact ⟨rfl, rfl, rfl⟩

theorem EnvEffect.powerMode {s t : State} (h : EnvEffect s t) : t.powerMode = s.powerMode := by
  cases h <;> rfl

/-- A command's acceptance enters its first phase, and no other access moves SEQ_PHASE. -/
theorem AccessEffect.seqPhase {s t : State} (h : AccessEffect s t) :
    t.seqPhase = s.seqPhase ∨ s.seqPhase = .idle ∧ ∃ op, t.seqPhase = firstPhase op :=
  h.control.imp SameControl.seqPhase fun ⟨op, accepted⟩ => ⟨accepted.idle, op, accepted.seqPhase⟩

theorem firstPhase_ne_idle (op : SeqOp) : firstPhase op ≠ .idle := by
  cases op <;> exact nofun

/-- Once a command is accepted the block is busy, so a body enters at most one first phase. -/
theorem runAccesses_seqPhase {body : List Access} {s t : State} (run : runAccesses body s = .next t) :
    t.seqPhase = s.seqPhase ∨ s.seqPhase = .idle ∧ ∃ op, t.seqPhase = firstPhase op := by
  obtain ⟨u, hu, reached⟩ := runAccesses_next
    (fun u => u.seqPhase = s.seqPhase ∨ s.seqPhase = .idle ∧ ∃ op, u.seqPhase = firstPhase op)
    (fun u v effect before => by
      rcases effect.seqPhase with same | ⟨idle, entered⟩
      · rwa [same]
      · rcases before with same | ⟨_, op, busy⟩
        · exact .inr ⟨same.symm.trans idle, entered⟩
        · exact absurd (busy.symm.trans idle) (firstPhase_ne_idle op))
    body s (.inl rfl)
  cases hu.symm.trans run
  exact reached

/-- SEQ_PHASE moves by the FSM's step or by a command's acceptance. -/
theorem AgentEffect.seqPhase {u t : State} (h : AgentEffect u t) :
    (∃ d, FsmEffect d u t) ∨ t.seqPhase = u.seqPhase ∨ u.seqPhase = .idle ∧ ∃ op, t.seqPhase = firstPhase op := by
  cases h with
  | fsm d _ effect => exact .inl ⟨d, effect⟩
  | env _ effect => exact .inr (.inl effect.control.seqPhase)
  | access _ effect => exact .inr effect.seqPhase
  | handler src _ _ _ run => exact .inr (handlerEntry_seqPhase src u ▸ runAccesses_seqPhase run)
  | unchanged => exact .inr (.inl rfl)

/-! ### The FSM -/

/-- What a step of the FSM does to ISSUED and POWER_MODE: it issues, halts, wakes, or goes on (R30, R34). -/
inductive ControlEffect (s t : State) : Prop where
  | issue (polling : twoStep s.seqPhase = true) (no_halt : s.seqPhase ≠ .esHalt ∧ s.seqPhase ≠ .slHalt)
      (fresh : s.issued = false) (stays : t.seqPhase = s.seqPhase) (issued : t.issued = true)
      (mode : t.powerMode = s.powerMode)
  | stop (at_phase : s.seqPhase = .esHalt) (fresh : s.issued = false) (stays : t.seqPhase = .esHalt)
      (issued : t.issued = true) (mode : t.powerMode = .stop)
  | sleep (at_phase : s.seqPhase = .slHalt) (fresh : s.issued = false) (stays : t.seqPhase = .slHalt)
      (issued : t.issued = true) (mode : t.powerMode = .sleepLight)
  | wake (halted : s.seqPhase = .esHalt ∧ stopWake s = true ∨ s.seqPhase = .slHalt ∧ sleepWake s = true)
      (issued : s.issued = true) (fresh : t.issued = false) (mode : t.powerMode = .run)
  | goes (no_halt : s.seqPhase ≠ .esHalt ∧ s.seqPhase ≠ .slHalt)
      (fresh : t.issued = false ∨ twoStep s.seqPhase = false ∧ t.issued = s.issued)
      (mode : t.powerMode = s.powerMode)

theorem wakeSource_any {l : List Source} {x src : Source} {s : State} (h : wakeSource l x s = some src) :
    l.any (wakes s) = true := by
  rw [← wakeSource_isSome l x, h, Option.isSome_some]

theorem FsmEffect.control {d : Draws} {s t : State} (h : FsmEffect d s t) : ControlEffect s t := by
  cases h
  case ccVosIssue at_phase fresh | ccOscIssue at_phase fresh | ccPllIssue at_phase fresh | ccSysclkIssue at_phase fresh
      | ccRtcclkIssue at_phase fresh | crVosIssue at_phase fresh | crHseIssue at_phase fresh | crPllIssue at_phase fresh
      | crSwIssue at_phase fresh =>
    exact .issue (by rw [at_phase]; rfl) (by simp [at_phase]) fresh rfl rfl rfl
  case esHaltIssue at_phase fresh => exact .stop at_phase fresh at_phase rfl rfl
  case slHaltIssue at_phase fresh => exact .sleep at_phase fresh at_phase rfl rfl
  case stopWake at_phase issued cond => exact .wake (.inl ⟨at_phase, wakeSource_any cond⟩) issued rfl rfl
  case sleepWake at_phase issued cond => exact .wake (.inr ⟨at_phase, wakeSource_any cond⟩) issued rfl rfl
  case esCsBegin at_phase | xsCsBegin at_phase =>
    exact .goes (by simp [at_phase]) (.inr ⟨by rw [at_phase]; rfl, csBegin_issued s⟩) (csBegin_powerMode s)
  case esCsEnd at_phase =>
    exact .goes (by simp [at_phase]) (.inr ⟨by rw [at_phase]; rfl, csEnd_issued _ s⟩) (csEnd_powerMode _ s)
  case xsCsEnd at_phase => exact .goes (by simp [at_phase]) (.inl rfl) (csEnd_powerMode _ s)
  case ccVosFail at_phase _ _ | ccOscFail at_phase _ _ | ccPllFail at_phase _ _ | ccSysclkFail at_phase _ _
      | ccRtcclkFail at_phase _ _ | ccVosOk at_phase _ _ _ | ccOscOk at_phase _ _ _ | ccPllOk at_phase _ _ _
      | ccSysclkOk at_phase _ _ _ | ccRtcclkOk at_phase _ _ _ | crVosDone at_phase _ _ | crHseDone at_phase _ _
      | crPllDone at_phase _ _ | crSwAdc at_phase _ _ _ | crSwDone at_phase _ _ _ =>
    exact .goes (by simp [at_phase]) (.inl rfl) rfl
  case ccSystickDone at_phase _ | calCheckSkipDone at_phase _ _ | siWdgDone at_phase _ | calRecordDone at_phase _ =>
    exact .goes (by simp [at_phase]) (.inl rfl) rfl
  all_goals
    have at_phase := ‹s.seqPhase = _›
    exact .goes (by simp [at_phase]) (.inr ⟨by rw [at_phase]; rfl, rfl⟩) rfl

/-- CUR_CMD is kept, cleared, or, by the Stop wake, becomes EXIT_STOP (R29, R139). -/
theorem FsmEffect.curCmd {d : Draws} {s t : State} (h : FsmEffect d s t) :
    t.curCmd = s.curCmd ∨ t.curCmd = none ∨ s.seqPhase = .esHalt := by
  cases h
  case stopWake at_phase _ _ => exact .inr (.inr at_phase)
  case esCsBegin | xsCsBegin => exact .inl (csBegin_curCmd s)
  case esCsEnd => exact .inl (csEnd_curCmd _ s)
  case ccSystickDone | calCheckSkipDone | siWdgDone | calRecordDone | crSwDone | xsCsEnd | sleepWake =>
    exact .inr (.inl rfl)
  all_goals exact .inl rfl

theorem caller_of_subset {c : Option SeqOp} {p q r : Phase} (at_phase : p = q) (caller : c ∈ callers p)
    (sub : (callers q).all (fun x => (callers r).contains x) = true) : c ∈ callers r :=
  List.contains_iff_mem.1 (List.all_eq_true.1 sub c (at_phase ▸ caller))

/-- Each phase hands CUR_CMD on to a phase that has it among its callers, or clears it (R29). -/
theorem FsmEffect.caller {d : Draws} {s t : State} (h : FsmEffect d s t) (caller : s.curCmd ∈ callers s.seqPhase) :
    t.curCmd ∈ callers t.seqPhase := by
  cases h
  case ccVosIssue | ccOscIssue | ccPllIssue | ccSysclkIssue | ccRtcclkIssue | crVosIssue | crHseIssue | crPllIssue
      | crSwIssue | esHaltIssue | slHaltIssue =>
    exact caller
  -- The branches CUR_CMD selects.
  case ccSystickInit cmd | siRadioFirst cmd _ | calCheckSkipInit cmd | siWdgExit cmd | calRecordInit cmd =>
    simp [callers, cmd]
  case crSwAdc cmd => simpa [callers] using cmd
  -- The returns.
  case ccSystickDone | calCheckSkipDone | siWdgDone | calRecordDone | crSwDone | xsCsEnd | sleepWake | stopWake =>
    exact List.mem_singleton_self _
  case esCsBegin at_phase => exact csBegin_curCmd s ▸ caller_of_subset at_phase caller rfl
  case xsCsBegin at_phase => exact csBegin_curCmd s ▸ caller_of_subset at_phase caller rfl
  case esCsEnd at_phase => exact csEnd_curCmd _ s ▸ caller_of_subset at_phase caller rfl
  all_goals exact caller_of_subset ‹s.seqPhase = _› caller rfl

/-! ### The invariant -/

theorem SequencerInv.congr {s t : State} (inv : SequencerInv s) (control : SameControl s t)
    (mode : t.powerMode = s.powerMode) (life : t.lifecycle = s.lifecycle) : SequencerInv t := by
  obtain ⟨phase, cmd, issued⟩ := control
  constructor <;> simp only [phase, cmd, issued, mode, life]
  · exact inv.caller
  · exact inv.issued_only_when_polling
  · exact inv.stop_mode
  · exact inv.sleep_mode
  · exact inv.stop_needs_initialized

/-- A state whose phase has not issued and whose CPU runs. -/
theorem SequencerInv.of_fresh {t : State} (fresh : t.issued = false) (runs : t.powerMode = .run)
    (caller : t.curCmd ∈ callers t.seqPhase)
    (ready : t.curCmd = some .enterStop ∨ t.curCmd = some .exitStop → t.lifecycle = .initialized) : SequencerInv t where
  caller := caller
  issued_only_when_polling := by simp [fresh]
  stop_mode := by simp [fresh, runs]
  sleep_mode := by simp [fresh, runs]
  stop_needs_initialized := ready

theorem SequencerInv.runs {s : State} (inv : SequencerInv s)
    (notHalted : ¬ ((s.seqPhase = .esHalt ∨ s.seqPhase = .slHalt) ∧ s.issued = true)) : s.powerMode = .run := by
  cases mode : s.powerMode with
  | run => rfl
  | stop => exact absurd ((inv.stop_mode.1 mode).imp_left .inl) notHalted
  | sleepLight => exact absurd ((inv.sleep_mode.1 mode).imp_left .inr) notHalted

theorem SequencerInv.not_issued {s : State} (inv : SequencerInv s) (oneStep : twoStep s.seqPhase = false) :
    s.issued = false :=
  eq_false_of_ne_true fun issued => nomatch oneStep.symm.trans (inv.issued_only_when_polling issued)

/-- A command that needs an Initialized block is one of the two Stop commands (R84). -/
theorem needsInitialized_iff (op : SeqOp) : needsInitialized op = true ↔ op = .enterStop ∨ op = .exitStop := by
  cases op <;> simp [needsInitialized]

theorem SequencerInv.of_accepted {op : SeqOp} {s t : State} (inv : SequencerInv s) (h : Accepted op s t)
    (mode : t.powerMode = s.powerMode) (life : t.lifecycle = s.lifecycle) : SequencerInv t := by
  refine .of_fresh h.issued (mode.trans (inv.runs (by simp [h.idle]))) ?_ fun stop => ?_
  · rw [h.curCmd, h.seqPhase]
    cases op <;> decide
  · rw [h.curCmd, Option.some_inj, Option.some_inj, ← needsInitialized_iff] at stop
    exact life.trans (h.ready stop)

/-- A Stop sequence's command is followed by a Stop sequence's command, and LIFECYCLE = 1 stays. -/
theorem FsmEffect.ready {d : Draws} {s t : State} (h : FsmEffect d s t) (inv : SequencerInv s)
    (stop : t.curCmd = some .enterStop ∨ t.curCmd = some .exitStop) : t.lifecycle = .initialized := by
  have before : s.lifecycle = .initialized := by
    rcases h.curCmd with kept | cleared | at_phase
    · exact inv.stop_needs_initialized (kept ▸ stop)
    · simp [cleared] at stop
    · have enter : s.curCmd = some .enterStop := by
        have caller := inv.caller
        rw [at_phase] at caller
        exact List.mem_singleton.1 caller
      exact inv.stop_needs_initialized (.inl enter)
  exact h.lifecycle.elim (fun kept => kept.trans before) And.right

theorem FsmEffect.sequencerInv {d : Draws} {s t : State} (h : FsmEffect d s t) (inv : SequencerInv s) :
    SequencerInv t := by
  have caller := h.caller inv.caller
  have ready := h.ready inv
  cases h.control with
  | issue polling no_halt fresh stays issued mode =>
    have runs : t.powerMode = .run := mode.trans (inv.runs (by simp [fresh]))
    exact ⟨caller, fun _ => stays ▸ polling, by simp [runs, stays, no_halt], by simp [runs, stays, no_halt], ready⟩
  | stop at_phase fresh stays issued mode =>
    exact ⟨caller, fun _ => by rw [stays]; rfl, by simp [mode, stays, issued], by simp [mode, stays], ready⟩
  | sleep at_phase fresh stays issued mode =>
    exact ⟨caller, fun _ => by rw [stays]; rfl, by simp [mode, stays], by simp [mode, stays, issued], ready⟩
  | wake halted issued fresh mode => exact .of_fresh fresh mode caller ready
  | goes no_halt fresh mode =>
    refine .of_fresh ?_ (mode.trans (inv.runs (by simp [no_halt]))) caller ready
    exact fresh.elim id fun ⟨oneStep, kept⟩ => kept.trans (inv.not_issued oneStep)

theorem AccessEffect.sequencerInv {s t : State} (h : AccessEffect s t) (inv : SequencerInv s) : SequencerInv t := by
  have frame := access_frame h
  rcases h.control with same | ⟨op, accepted⟩
  · exact inv.congr same frame.powerMode frame.lifecycle
  · exact inv.of_accepted accepted frame.powerMode frame.lifecycle

theorem handlerEntry_sequencerInv {src : Source} {s : State} (inv : SequencerInv s) :
    SequencerInv (handlerEntry src s) :=
  inv.congr (handlerEntry_control src s) (handlerEntry_powerMode src s) (handlerEntry_lifecycle src s)

theorem envStep_sequencerInv {e : EnvAction} {s : State} (inv : SequencerInv s) : SequencerInv (envStep e s) :=
  have effect := envStep_effect e s
  inv.congr effect.control effect.powerMode effect.lifecycle

theorem resetWith_sequencerInv (d : ResetDraws) (s : State) : SequencerInv (resetWith d s) :=
  .of_fresh rfl rfl (List.mem_singleton_self _) nofun

/-- Settles O22: each agent's step keeps the invariant. -/
theorem sequencerInvariantKept : Obligations.SequencerInvariantKept := fun s t inv h =>
  step_keeps SequencerInv (fun _ _ inv => inv.congr ⟨rfl, rfl, rfl⟩ rfl rfl)
    (fun _ _ inv => inv.congr ⟨rfl, rfl, rfl⟩ rfl rfl) (fun _ _ => AccessEffect.sequencerInv)
    (fun _ _ _ run => (fsmStep_effect run).sequencerInv) (fun _ _ _ => handlerEntry_sequencerInv)
    (fun _ _ => envStep_sequencerInv) (fun d s _ => resetWith_sequencerInv d s) s t h inv

/-- An invariant that the agents keep together with the sequencer's is kept by every step. -/
theorem step_keeps_sequenced (P : State → Prop) (agenda : ∀ s a, P s → P { s with agenda := a })
    (ticks : ∀ s n, P s → P { s with tick := n })
    (access : ∀ s t, AccessEffect s t → SequencerInv s → P s → P t)
    (fsm : ∀ d s t, FsmEffect d s t → SequencerInv s → P s → P t)
    (handler : ∀ src s, handlerEnabled s src = true → P s → P (handlerEntry src s))
    (env : ∀ e s, P s → P (envStep e s)) (reset : ∀ d s, P (resetWith d s))
    (s t : State) (seq : SequencerInv s) (inv : P s) (h : step s = .next t) : P t :=
  (step_keeps (fun u => SequencerInv u ∧ P u)
    (fun u a ⟨seq, inv⟩ => ⟨seq.congr ⟨rfl, rfl, rfl⟩ rfl rfl, agenda u a inv⟩)
    (fun u n ⟨seq, inv⟩ => ⟨seq.congr ⟨rfl, rfl, rfl⟩ rfl rfl, ticks u n inv⟩)
    (fun u v effect ⟨seq, inv⟩ => ⟨effect.sequencerInv seq, access u v effect seq inv⟩)
    (fun d u v run ⟨seq, inv⟩ => ⟨(fsmStep_effect run).sequencerInv seq, fsm d u v (fsmStep_effect run) seq inv⟩)
    (fun src u enabled ⟨seq, inv⟩ => ⟨handlerEntry_sequencerInv seq, handler src u enabled inv⟩)
    (fun e u ⟨seq, inv⟩ => ⟨envStep_sequencerInv seq, env e u inv⟩)
    (fun d u _ => ⟨resetWith_sequencerInv d u, reset d u⟩) s t h ⟨seq, inv⟩).2

/-! ### POWER_MODE (R34, R240) -/

theorem ControlEffect.powerMode {s t : State} (h : ControlEffect s t) :
    t.powerMode = s.powerMode ∨
    (s.seqPhase = .esHalt ∧ s.issued = false ∧ t.powerMode = .stop) ∨
    (s.seqPhase = .slHalt ∧ s.issued = false ∧ t.powerMode = .sleepLight) ∨
    (t.powerMode = .run ∧ s.issued = true ∧
      (s.seqPhase = .esHalt ∧ stopWake s = true ∨ s.seqPhase = .slHalt ∧ sleepWake s = true)) := by
  cases h with
  | issue _ _ _ _ _ mode | goes _ _ mode => exact .inl mode
  | stop at_phase fresh _ _ mode => exact .inr (.inl ⟨at_phase, fresh, mode⟩)
  | sleep at_phase fresh _ _ mode => exact .inr (.inr (.inl ⟨at_phase, fresh, mode⟩))
  | wake halted issued _ mode => exact .inr (.inr (.inr ⟨mode, issued, halted⟩))

/-- Only the FSM moves POWER_MODE: into a halt by an issue step, out of it by a wake whose condition holds. -/
theorem step_powerMode {s t : State} (h : step s = .next t) (noReset : resets s = false) :
    t.powerMode = s.powerMode ∨
    (s.seqPhase = .esHalt ∧ s.issued = false ∧ t.powerMode = .stop) ∨
    (s.seqPhase = .slHalt ∧ s.issued = false ∧ t.powerMode = .sleepLight) ∨
    (t.powerMode = .run ∧ s.issued = true ∧
      (s.seqPhase = .esHalt ∧ stopWake s = true ∨ s.seqPhase = .slHalt ∧ sleepWake s = true)) := by
  obtain ⟨_, _, agent⟩ := step_agent h noReset
  cases agent with
  | fsm _ _ effect => exact effect.control.powerMode
  | env _ effect => exact .inl effect.powerMode
  | access _ effect => exact .inl (access_frame effect).powerMode
  | handler src _ _ _ run => exact .inl ((runAccesses_frame run).powerMode.trans (handlerEntry_powerMode src _))
  | unchanged => exact .inl rfl

theorem wakes_iff (s : State) (src : Source) :
    wakes s src = true ↔
      s.pending.get src = true ∧ enabled s src = true ∧ (s.params.wakeNeedsIe = false ∨ s.ie = true) := by
  simp [wakes, wakeGate, and_assoc, or_comm]

/-- Settles O33: by the invariant the mode names the halt phase, and of `step_powerMode`'s four ways only that phase's
remain. -/
theorem haltsAndWakes : Obligations.HaltsAndWakes := by
  intro s t inv h noReset
  refine ⟨fun run stop => ?_, fun run sleep => ?_, fun stop left => ?_, fun sleep left => ?_, ?_, ?_⟩
  · rcases step_powerMode h noReset with kept | ⟨at_phase, fresh, _⟩ | ⟨_, _, mode⟩ | ⟨mode, _⟩
    · cases stop.symm.trans (kept.trans run)
    · exact ⟨at_phase, fresh⟩
    · cases stop.symm.trans mode
    · cases stop.symm.trans mode
  · rcases step_powerMode h noReset with kept | ⟨_, _, mode⟩ | ⟨at_phase, fresh, _⟩ | ⟨mode, _⟩
    · cases sleep.symm.trans (kept.trans run)
    · cases sleep.symm.trans mode
    · exact ⟨at_phase, fresh⟩
    · cases sleep.symm.trans mode
  · obtain ⟨at_phase, issued⟩ := inv.stop_mode.1 stop
    rcases step_powerMode h noReset with kept | ⟨_, fresh, _⟩ | ⟨_, fresh, _⟩ | ⟨mode, _, ⟨_, wake⟩ | ⟨asleep, _⟩⟩
    · exact absurd (kept.trans stop) left
    · cases issued.symm.trans fresh
    · cases issued.symm.trans fresh
    · exact ⟨mode, wake⟩
    · cases at_phase.symm.trans asleep
  · obtain ⟨at_phase, issued⟩ := inv.sleep_mode.1 sleep
    rcases step_powerMode h noReset with kept | ⟨_, fresh, _⟩ | ⟨_, fresh, _⟩ | ⟨mode, _, ⟨stopped, _⟩ | ⟨_, wake⟩⟩
    · exact absurd (kept.trans sleep) left
    · cases issued.symm.trans fresh
    · cases issued.symm.trans fresh
    · cases at_phase.symm.trans stopped
    · exact ⟨mode, wake⟩
  · simp [stopWake_iff, wakes_iff]
  · simp [sleepWake_iff, wakes_iff]

end Sys2Proof.Machine
end

section
/-! SUPPORT. Proofs about the sequencer's next phase (R27): SEQ_PHASE, CUR_CMD and ISSUED after a step of the FSM, as a
function of the fields the spec names. -/

namespace Sys2Proof.Machine

/-- The fields a phase's successor may depend on (R27, R102). -/
structure Control where
  seqPhase : Phase
  issued : Bool
  curCmd : Option SeqOp
  coldPath : Bool
  pwrSrc : PowerSource
  calState : CalState
  lifecycle : Lifecycle

def State.control (s : State) : Control :=
  ⟨s.seqPhase, s.issued, s.curCmd, s.coldPath, s.pwr.pwrSrc, s.calState, s.lifecycle⟩

/-- SEQ_PHASE, CUR_CMD and ISSUED. -/
structure Position where
  seqPhase : Phase
  curCmd : Option SeqOp
  issued : Bool

def State.position (s : State) : Position := ⟨s.seqPhase, s.curCmd, s.issued⟩

namespace Control

/-- `next P`, ISSUED as it was. -/
def moves (c : Control) (p : Phase) : Position := ⟨p, c.curCmd, c.issued⟩

/-- `done`. -/
def returns : Position := ⟨.idle, none, false⟩

/-- A two-step phase: the issue step stays, the completion goes on (R30). -/
def polls (c : Control) (succ : Phase) : Position := if c.issued then ⟨succ, c.curCmd, false⟩ else ⟨c.seqPhase, c.curCmd, true⟩

/-- A cold step, whose completion traps in FATAL on a FAIL (R152). -/
def coldPolls (st : Option StepStatus) (c : Control) (succ : Phase) : Position :=
  c.polls (if st = some .fail then .fatal else succ)

/-- Where a step of the FSM leads (R28). -/
def next (st : Option StepStatus) (c : Control) : Position :=
  match c.seqPhase with
  | .idle => c.moves .idle
  | .siEntry => c.moves (if c.lifecycle = .uninitialized then .ccVos else .crVos)
  | .ccVos => c.coldPolls st .ccOsc
  | .ccOsc => c.coldPolls st .ccPll
  | .ccPll => c.coldPolls st .ccSysclk
  | .ccSysclk => c.coldPolls st .ccRtcclk
  | .ccRtcclk => c.coldPolls st .ccSystick
  | .ccSystick => if c.curCmd = some .sysInit then c.moves .siConsole else returns
  | .crVos => c.polls .crHse
  | .crHse => c.polls .crPll
  | .crPll => c.polls .crSw
  | .crSw =>
    if c.issued = false ∨ c.curCmd = some .sysInit ∨ c.curCmd = some .exitStop then c.polls .siAdc else returns
  | .siConsole => c.moves .siRtc
  | .siRtc => c.moves .siLeds
  | .siLeds => c.moves .siPins
  | .siPins => c.moves .siLppolicy
  | .siLppolicy => c.moves .siAdc
  | .siAdc => c.moves .siRadio
  | .siRadio => c.moves (if c.curCmd = some .sysInit ∧ c.coldPath = true then .siFirstboot else .siWdg)
  | .siFirstboot => c.moves (if c.pwrSrc = .batteryPower then .calCheck else .siWdg)
  | .calCheck =>
    if c.calState ≠ .calibrated then c.moves .calArm
    else if c.curCmd = some .sysInit then c.moves .siWdg else returns
  | .calArm => c.moves .calWait
  | .calWait => c.moves .calRecord
  | .calRecord => if c.curCmd = some .sysInit then c.moves .siWdg else returns
  | .siWdg => if c.curCmd = some .exitStop then c.moves .xsCsEnd else returns
  | .esCsBegin => c.moves .esRadioDeinit
  | .esRadioDeinit => c.moves .esAdcDeinit
  | .esAdcDeinit => c.moves .esPins
  | .esPins => c.moves .esCsEnd
  | .esCsEnd => c.moves .esBorOff
  | .esBorOff => c.moves .esClrWuf
  | .esClrWuf => c.moves .esUlpFwu
  | .esUlpFwu => c.moves .esHalt
  | .esHalt => if c.issued then ⟨.xsCsBegin, some .exitStop, false⟩ else ⟨.esHalt, c.curCmd, true⟩
  | .xsCsBegin => c.moves .crVos
  | .xsCsEnd => returns
  | .slHalt => if c.issued then returns else ⟨.slHalt, c.curCmd, true⟩
  | .fatal => c.moves .fatal

end Control

section
variable (st : Option StepStatus) {s : State} {p : Phase}

theorem next_of_phase (at_phase : s.seqPhase = p) :
    s.control.next st = { s.control with seqPhase := p }.next st := by
  subst at_phase
  rfl

theorem next_of_fresh (at_phase : s.seqPhase = p) (fresh : s.issued = false) :
    s.control.next st = { s.control with seqPhase := p, issued := false }.next st := by
  rw [← at_phase, ← fresh]
  rfl

end

/-- A step of the FSM ends where `Control.next` says: the phase selects the row, and what the step was taken under
selects the row's branch. -/
theorem FsmEffect.position {d : Draws} {s t : State} (h : FsmEffect d s t) :
    t.position = s.control.next d.status := by
  cases h
  case ccVosIssue at_phase fresh | ccOscIssue at_phase fresh | ccPllIssue at_phase fresh | ccSysclkIssue at_phase fresh
      | ccRtcclkIssue at_phase fresh | crVosIssue at_phase fresh | crHseIssue at_phase fresh | crPllIssue at_phase fresh
      | crSwIssue at_phase fresh | esHaltIssue at_phase fresh | slHaltIssue at_phase fresh =>
    rw [next_of_fresh d.status at_phase fresh]
    exact congrArg (Position.mk · s.curCmd true) at_phase
  case siConsole at_phase | siRtc at_phase | siLeds at_phase | siPins at_phase | siAdc at_phase | calArm at_phase
      | esRadioDeinit at_phase | esAdcDeinit at_phase | esPins at_phase | esBorOff at_phase | esClrWuf at_phase
      | esUlpFwu at_phase | siLppolicyBattery at_phase _ | siLppolicyExternal at_phase _ | calWaitDone at_phase _
      | xsCsEnd at_phase =>
    exact (next_of_phase d.status at_phase).symm
  case esCsBegin at_phase | xsCsBegin at_phase =>
    rw [next_of_phase d.status at_phase]
    exact congr (congrArg (Position.mk _) (csBegin_curCmd s)) (csBegin_issued s)
  case esCsEnd at_phase =>
    rw [next_of_phase d.status at_phase]
    exact congr (congrArg (Position.mk _) (csEnd_curCmd _ s)) (csEnd_issued _ s)
  -- The completions of the polls, and the phases that branch on a field.
  all_goals
    simp_all [State.position, State.control, Control.next, Control.moves, Control.polls, Control.coldPolls,
      Control.returns, coldFail_eq, coldOk, stopWakeStep, sleepWakeStep]

/-- Settles O35: the two steps end where `Control.next` says, and its arguments are the same. -/
theorem nextPhaseDependsOn : Obligations.NextPhaseDependsOn := by
  intro d d' s s' t t' h h' phase issued cmd cold source cal life status
  have control : s'.control = s.control := by simp only [State.control, phase, issued, cmd, cold, source, cal, life]
  have same : t'.position = t.position := by
    rw [(fsmStep_effect h').position, (fsmStep_effect h).position, control, status]
  simpa [State.position] using same

end Sys2Proof.Machine
end

section
/-! SUPPORT. Proofs about the clock tree's invariant (R139, R159, R165, R175, R290): the flags follow their enables, and
each phase that uses a flag is entered with it set. -/

namespace Sys2Proof.Machine

/-! ### The invariant's two parts -/

/-- The flags follow their enables (R139, R175). -/
structure ClkFlags (c : ClkCtrl) : Prop where
  hse : c.hseRdy = true → c.hseOn = true
  lse : c.lseRdy = true → c.lseOn = true
  lock : c.pllLock = true → c.pllOn = true ∧ c.hseRdy = true
  sw_pll : c.sw = .pll → c.pllOn = true
  sws_pll : c.sws = .pll → c.pllLock = true

/-- What a phase relies on (R159, R165, R166). -/
structure ClkReady (p : Phase) (issued : Bool) (c : ClkCtrl) : Prop where
  pll_after_osc : (p = .ccPll ∨ p = .crPll) → c.hseRdy = true
  pll_issued : (p = .ccPll ∨ p = .crPll) → issued = true → c.pllSrcHse = true
  switch_after_lock : (p = .ccSysclk ∨ p = .crSw) → c.pllLock = true ∧ c.pllSrcHse = true
  switch_issued : (p = .ccSysclk ∨ p = .crSw) → issued = true → c.sw = .pll
  running_after_switch : (p = .ccRtcclk ∨ p = .ccSystick) → c.clockState = .running

theorem clockInv_iff (s : State) : ClockInv s ↔ ClkFlags s.clk ∧ ClkReady s.seqPhase s.issued s.clk :=
  ⟨fun ⟨h, l, k, w, v, a, b, c, d, e⟩ => ⟨⟨h, l, k, w, v⟩, ⟨a, b, c, d, e⟩⟩,
    fun ⟨⟨h, l, k, w, v⟩, ⟨a, b, c, d, e⟩⟩ => ⟨h, l, k, w, v, a, b, c, d, e⟩⟩

/-- The phases that rely on a clock flag. -/
def reliesOnClock : Phase → Bool
  | .ccPll | .crPll | .ccSysclk | .crSw | .ccRtcclk | .ccSystick => true
  | _ => false

theorem ClkReady.of_free {p : Phase} {issued : Bool} {c : ClkCtrl} (free : reliesOnClock p = false) :
    ClkReady p issued c := by
  constructor <;> (rintro (rfl | rfl) <;> cases free)

section
variable {p : Phase} {issued : Bool} {c : ClkCtrl}

theorem ClkReady.at_pll (at_phase : p = .ccPll ∨ p = .crPll) (ready : c.hseRdy = true)
    (source : issued = true → c.pllSrcHse = true) : ClkReady p issued c := by
  rcases at_phase with rfl | rfl <;> exact ⟨fun _ => ready, fun _ => source, nofun, nofun, nofun⟩

theorem ClkReady.at_switch (at_phase : p = .ccSysclk ∨ p = .crSw) (locked : c.pllLock = true ∧ c.pllSrcHse = true)
    (sw : issued = true → c.sw = .pll) : ClkReady p issued c := by
  rcases at_phase with rfl | rfl <;> exact ⟨nofun, nofun, fun _ => locked, fun _ => sw, nofun⟩

theorem ClkReady.after_switch (at_phase : p = .ccRtcclk ∨ p = .ccSystick) (running : c.clockState = .running) :
    ClkReady p issued c := by
  rcases at_phase with rfl | rfl <;> exact ⟨nofun, nofun, nofun, nofun, fun _ => running⟩

end

theorem ClockInv.congr {s t : State} (inv : ClockInv s) (control : SameControl s t) (clk : t.clk = s.clk) :
    ClockInv t := by
  rw [clockInv_iff] at inv ⊢
  rwa [clk, control.seqPhase, control.issued]

/-! ### The FSM -/

theorem clkFlags_afterWake (d : WakeDraw) {c : ClkCtrl} (flags : ClkFlags c) : ClkFlags (c.afterWake d) where
  hse := (wakeLaws_lawfulWake d).hseRdy
  lse := flags.lse
  lock := (wakeLaws_lawfulWake d).pllLock
  sw_pll pll := (wakeLaws_lawfulWake d).swPll ((sourceOf_eq_pll _).1 pll)
  sws_pll pll := (wakeLaws_lawfulWake d).swsPll ((sourceOf_eq_pll _).1 pll)

/-- The switch to the PLL is written where the lock, and so PLL_ON, is known (R165). -/
theorem FsmEffect.clkFlags {d : Draws} {s t : State} (h : FsmEffect d s t) (inv : ClockInv s) : ClkFlags t.clk := by
  have flags := ((clockInv_iff s).1 inv).1
  cases h
  case ccVosIssue | crVosIssue | ccRtcclkIssue | ccSystickInit | ccSystickDone =>
    exact ⟨flags.hse, flags.lse, flags.lock, flags.sw_pll, flags.sws_pll⟩
  case ccOscIssue => exact ⟨fun _ => rfl, fun _ => rfl, flags.lock, flags.sw_pll, flags.sws_pll⟩
  case crHseIssue => exact ⟨fun _ => rfl, flags.lse, flags.lock, flags.sw_pll, flags.sws_pll⟩
  case ccPllIssue | crPllIssue =>
    exact ⟨flags.hse, flags.lse, fun locked => ⟨rfl, (flags.lock locked).2⟩, fun _ => rfl, flags.sws_pll⟩
  case ccSysclkIssue at_phase _ =>
    have pllOn := (flags.lock (inv.switch_after_lock (.inl at_phase)).1).1
    exact ⟨flags.hse, flags.lse, flags.lock, fun _ => pllOn, flags.sws_pll⟩
  case crSwIssue at_phase _ =>
    have pllOn := (flags.lock (inv.switch_after_lock (.inr at_phase)).1).1
    exact ⟨flags.hse, flags.lse, flags.lock, fun _ => pllOn, flags.sws_pll⟩
  case stopWake => exact clkFlags_afterWake d.wakeClk flags
  case esCsBegin | xsCsBegin => exact csBegin_clk s ▸ flags
  case esCsEnd | xsCsEnd => exact csEnd_clk _ s ▸ flags
  all_goals exact flags

/-- Each phase that relies on a flag is entered by the completion that has observed it. -/
theorem FsmEffect.clkReady {d : Draws} {s t : State} (h : FsmEffect d s t) (inv : ClockInv s) :
    ClkReady t.seqPhase t.issued t.clk := by
  cases h
  case ccOscOk _ _ _ cond => exact .at_pll (.inl rfl) cond.1 nofun
  case crHseDone _ _ cond => exact .at_pll (.inr rfl) cond nofun
  case ccPllIssue at_phase _ => exact .at_pll (.inl at_phase) (inv.pll_after_osc (.inl at_phase)) fun _ => rfl
  case crPllIssue at_phase _ => exact .at_pll (.inr at_phase) (inv.pll_after_osc (.inr at_phase)) fun _ => rfl
  case ccPllOk at_phase issued _ cond =>
    exact .at_switch (.inl rfl) ⟨cond, inv.pll_issued (.inl at_phase) issued⟩ nofun
  case crPllDone at_phase issued cond =>
    exact .at_switch (.inr rfl) ⟨cond, inv.pll_issued (.inr at_phase) issued⟩ nofun
  case ccSysclkIssue at_phase _ =>
    exact .at_switch (.inl at_phase) (inv.switch_after_lock (.inl at_phase)) fun _ => rfl
  case crSwIssue at_phase _ =>
    exact .at_switch (.inr at_phase) (inv.switch_after_lock (.inr at_phase)) fun _ => rfl
  case ccSysclkOk at_phase issued _ cond =>
    exact .after_switch (.inl rfl) (inv.running_of_switched (.inl at_phase) issued cond)
  case ccRtcclkIssue at_phase _ => exact .after_switch (.inl at_phase) (inv.running_after_switch (.inl at_phase))
  case ccRtcclkOk at_phase _ _ _ => exact .after_switch (.inr rfl) (inv.running_after_switch (.inl at_phase))
  case ccVosIssue at_phase _ | ccOscIssue at_phase _ | crVosIssue at_phase _ | crHseIssue at_phase _
      | esHaltIssue at_phase _ | slHaltIssue at_phase _ =>
    exact .of_free (congrArg reliesOnClock at_phase)
  all_goals exact .of_free rfl

theorem FsmEffect.clockInv {d : Draws} {s t : State} (h : FsmEffect d s t) (inv : ClockInv s) : ClockInv t :=
  (clockInv_iff t).2 ⟨h.clkFlags inv, h.clkReady inv⟩

/-! ### The environment -/

theorem EnvEffect.clkFlags {s t : State} (h : EnvEffect s t) (flags : ClkFlags s.clk) : ClkFlags t.clk := by
  cases h
  case vosRdy => exact ⟨flags.hse, flags.lse, flags.lock, flags.sw_pll, flags.sws_pll⟩
  case hseRdy _ on =>
    exact ⟨fun _ => on, flags.lse, fun locked => ⟨(flags.lock locked).1, rfl⟩, flags.sw_pll, flags.sws_pll⟩
  case lseRdy _ on => exact ⟨flags.hse, fun _ => on, flags.lock, flags.sw_pll, flags.sws_pll⟩
  case pllLock _ on _ ready => exact ⟨flags.hse, flags.lse, fun _ => ⟨on, ready⟩, flags.sw_pll, fun _ => rfl⟩
  case sws may =>
    exact ⟨flags.hse, flags.lse, flags.lock, flags.sw_pll,
      fun pll => may.resolve_left fun internal => nomatch internal.symm.trans pll⟩
  all_goals exact flags

/-- The environment raises flags and moves no phase, so what a phase relies on stays. -/
theorem EnvEffect.clkReady {s t : State} (h : EnvEffect s t) (inv : ClockInv s) :
    ClkReady t.seqPhase t.issued t.clk := by
  have noWake : ¬ (s.seqPhase = .esHalt ∧ t.seqPhase = .xsCsBegin) := fun ⟨halted, woken⟩ =>
    nomatch halted.symm.trans (h.control.seqPhase.symm.trans woken)
  have running (at_phase : s.seqPhase = .ccRtcclk ∨ s.seqPhase = .ccSystick) : t.clk.clockState = .running :=
    h.clkEffect.running noWake (inv.running_after_switch at_phase)
  have ready := ((clockInv_iff s).1 inv).2
  cases h
  case hseRdy => exact ⟨fun _ => rfl, ready.pll_issued, ready.switch_after_lock, ready.switch_issued, running⟩
  case pllLock =>
    exact ⟨ready.pll_after_osc, ready.pll_issued, fun at_phase => ⟨rfl, (ready.switch_after_lock at_phase).2⟩,
      ready.switch_issued, running⟩
  all_goals
    exact ⟨ready.pll_after_osc, ready.pll_issued, ready.switch_after_lock, ready.switch_issued, running⟩

theorem envStep_clockInv {e : EnvAction} {s : State} (inv : ClockInv s) : ClockInv (envStep e s) :=
  have effect := envStep_effect e s
  (clockInv_iff _).2 ⟨effect.clkFlags ((clockInv_iff s).1 inv).1, effect.clkReady inv⟩

/-! ### Software and reset -/

theorem AccessEffect.clockInv {s t : State} (h : AccessEffect s t) (inv : ClockInv s) : ClockInv t := by
  have clk := (access_frame h).clk
  rcases h.control with same | ⟨op, accepted⟩
  · exact inv.congr same clk
  · refine (clockInv_iff t).2 ⟨clk ▸ ((clockInv_iff s).1 inv).1, .of_free ?_⟩
    rw [accepted.seqPhase]
    cases op <;> rfl

theorem handlerEntry_clockInv {src : Source} {s : State} (inv : ClockInv s) : ClockInv (handlerEntry src s) :=
  inv.congr (handlerEntry_control src s) (handlerEntry_clk src s)

/-- A reset clears every enable and every flag but LSE's, which it draws under their law (D55). -/
theorem resetWith_clockInv (d : ResetDraws) (s : State) : ClockInv (resetWith d s) :=
  (clockInv_iff _).2 ⟨⟨nofun, fun ready => (Bool.and_eq_true_iff.1 ready).1, nofun, nofun, nofun⟩, .of_free rfl⟩

/-- Settles O23: each agent's step keeps the invariant. -/
theorem clockInvariantKept : Obligations.ClockInvariantKept := fun s t inv h =>
  step_keeps ClockInv (fun _ _ inv => inv.congr ⟨rfl, rfl, rfl⟩ rfl) (fun _ _ inv => inv.congr ⟨rfl, rfl, rfl⟩ rfl)
    (fun _ _ => AccessEffect.clockInv) (fun _ _ _ run => (fsmStep_effect run).clockInv)
    (fun _ _ _ => handlerEntry_clockInv) (fun _ _ => envStep_clockInv) (fun d s _ => resetWith_clockInv d s) s t h inv

end Sys2Proof.Machine
end

section
/-! SUPPORT. Proofs about the cold sequence (R47, R101, R151 to R157): each phase has the clock writes of the phases before
it, and LIFECYCLE = 1 implies the writes a Stop keeps. -/

namespace Sys2Proof.Machine

/-! ### What is written, as propositions -/

theorem coldRetained_iff (c : ClkCtrl) :
    coldRetained c = true ↔ c.vosFull = true ∧ c.lseOn = true ∧ c.pllSrcHse = true ∧ c.busdivSet = true ∧
      c.rtcselLse = true ∧ c.systickOn = true := by
  simp [coldRetained, and_assoc]

theorem coldDone_iff (c : ClkCtrl) :
    coldDone c = true ↔ coldRetained c = true ∧ c.hseOn = true ∧ c.pllOn = true ∧ c.sw = .pll := by
  simp [coldDone, and_assoc]

/-- Nothing clears a write that a Stop keeps (R139). -/
theorem ClkEffect.coldRetained {p q : Phase} {issued : Bool} {c c' : ClkCtrl} (h : ClkEffect p issued c q c')
    (retained : coldRetained c = true) : coldRetained c' = true := by
  rw [coldRetained_iff] at retained ⊢
  obtain ⟨vosFull, lseOn, source, busdiv, rtcsel, systick⟩ := retained
  cases h
  case kept same => exact same ▸ ⟨vosFull, lseOn, source, busdiv, rtcsel, systick⟩
  case vosFull => exact ⟨rfl, lseOn, source, busdiv, rtcsel, systick⟩
  case oscillators => exact ⟨vosFull, rfl, source, busdiv, rtcsel, systick⟩
  case pllOn => exact ⟨vosFull, lseOn, rfl, busdiv, rtcsel, systick⟩
  case sysclk => exact ⟨vosFull, lseOn, source, rfl, rtcsel, systick⟩
  case rtcselLse => exact ⟨vosFull, lseOn, source, busdiv, rfl, systick⟩
  case systickOn => exact ⟨vosFull, lseOn, source, busdiv, rtcsel, rfl⟩
  all_goals exact ⟨vosFull, lseOn, source, busdiv, rtcsel, systick⟩

/-! ### What a phase relies on -/

/-- What a phase has to do with the cold sequence: it is part of it or of the boot after it, it rebuilds for both
branches of SYS_INIT, it is part of the resume sequence, or none of these. -/
inductive ColdRole where
  | writes
  | rebuilds
  | resumes
  | free

def coldRole : Phase → ColdRole
  | .ccVos | .ccOsc | .ccPll | .ccSysclk | .ccRtcclk | .ccSystick | .siConsole | .siRtc | .siLeds | .siPins
  | .siLppolicy | .siFirstboot => .writes
  | .siAdc | .siRadio => .rebuilds
  | .crVos | .crHse | .crPll | .crSw => .resumes
  | _ => .free

/-- The invariant but for LIFECYCLE. -/
structure ColdReady (s : State) : Prop where
  written : coldWritten s.clk s.issued s.seqPhase = true
  cold_branch :
    (s.seqPhase = .siAdc ∨ s.seqPhase = .siRadio) → s.curCmd = some .sysInit → s.coldPath = true → coldDone s.clk = true
  resume_branch : s.seqPhase ∈ [Phase.crVos, .crHse, .crPll, .crSw] → s.curCmd = some .sysInit → s.coldPath = false

section
variable {s : State}

theorem ColdReady.of_writes (role : coldRole s.seqPhase = .writes)
    (written : coldWritten s.clk s.issued s.seqPhase = true) : ColdReady s := by
  refine ⟨written, ?_, ?_⟩ <;> revert role <;> cases s.seqPhase <;> simp [coldRole]

theorem ColdReady.of_rebuilds (role : coldRole s.seqPhase = .rebuilds)
    (cold : s.curCmd = some .sysInit → s.coldPath = true → coldDone s.clk = true) : ColdReady s := by
  refine ⟨?_, fun _ => cold, ?_⟩ <;> revert role <;> cases s.seqPhase <;> simp [coldRole, coldWritten]

theorem ColdReady.of_resumes (role : coldRole s.seqPhase = .resumes)
    (warm : s.curCmd = some .sysInit → s.coldPath = false) : ColdReady s := by
  refine ⟨?_, ?_, fun _ => warm⟩ <;> revert role <;> cases s.seqPhase <;> simp [coldRole, coldWritten]

theorem ColdReady.of_free (role : coldRole s.seqPhase = .free) : ColdReady s := by
  refine ⟨?_, ?_, ?_⟩ <;> revert role <;> cases s.seqPhase <;> simp [coldRole, coldWritten]

end

theorem coldInv_iff (s : State) :
    ColdInv s ↔ ColdReady s ∧ (s.lifecycle = .initialized → coldRetained s.clk = true) :=
  ⟨fun ⟨w, c, r, i⟩ => ⟨⟨w, c, r⟩, i⟩, fun ⟨⟨w, c, r⟩, i⟩ => ⟨w, c, r, i⟩⟩

/-! ### The FSM -/

/-- The phase a cold step's completion enters (R151 to R156). -/
def coldSuccessor : Phase → Phase
  | .ccVos => .ccOsc
  | .ccOsc => .ccPll
  | .ccPll => .ccSysclk
  | .ccSysclk => .ccRtcclk
  | .ccRtcclk => .ccSystick
  | p => p

/-- What a cold phase has written once issued is what its successor relies on. -/
theorem coldWritten_of_issued {c : ClkCtrl} {p q : Phase} (succ : q = coldSuccessor p)
    (written : coldWritten c true p = true) : coldWritten c false q = true := by
  subst succ
  revert written
  cases p <;> simp [coldWritten, coldSuccessor, and_assoc]

theorem FsmEffect.coldRetained {d : Draws} {s t : State} (h : FsmEffect d s t) (inv : ColdInv s)
    (initialized : t.lifecycle = .initialized) : coldRetained t.clk = true := by
  refine h.clkEffect.coldRetained ?_
  rcases h.lifecycle with kept | ⟨at_phase, _⟩
  · exact inv.initialized (kept.symm.trans initialized)
  · have written := inv.written
    rw [at_phase] at written
    exact ((coldDone_iff _).1 written).1

theorem FsmEffect.coldReady {d : Draws} {s t : State} (h : FsmEffect d s t) (seq : SequencerInv s) (inv : ColdInv s) :
    ColdReady t := by
  have written := inv.written
  have oneStep := seq.not_issued
  cases h
  case siEntryCold at_phase _ => exact .of_writes rfl (by simp [coldWritten, oneStep (by rw [at_phase]; rfl)])
  case siEntryResume => exact .of_resumes rfl fun _ => rfl
  case xsCsBegin at_phase =>
    have caller := seq.caller
    rw [at_phase] at caller
    refine .of_resumes rfl fun init => nomatch (List.mem_singleton.1 caller).symm.trans ((csBegin_curCmd s).symm.trans init)
  -- The resume sequence writes no COLD_PATH.
  case crVosIssue at_phase _ | crHseIssue at_phase _ | crPllIssue at_phase _ | crSwIssue at_phase _ =>
    exact .of_resumes (congrArg coldRole at_phase) (inv.resume_branch (by simp [at_phase]))
  case crVosDone at_phase _ _ | crHseDone at_phase _ _ | crPllDone at_phase _ _ =>
    exact .of_resumes rfl (inv.resume_branch (by simp [at_phase]))
  case crSwAdc at_phase _ _ _ =>
    exact .of_rebuilds rfl fun init cold => nomatch cold.symm.trans (inv.resume_branch (by simp [at_phase]) init)
  -- The cold sequence: a phase's own writes complete what the next phase relies on.
  case ccVosIssue at_phase _ | ccOscIssue at_phase _ | ccPllIssue at_phase _ | ccSysclkIssue at_phase _
      | ccRtcclkIssue at_phase _ =>
    refine .of_writes (congrArg coldRole at_phase) ?_
    simp_all [coldWritten, Machine.ccVosIssue, Machine.ccOscIssue, pllIssue, Machine.ccSysclkIssue, Machine.ccRtcclkIssue]
  case ccVosOk at_phase issued _ _ | ccOscOk at_phase issued _ _ | ccPllOk at_phase issued _ _
      | ccSysclkOk at_phase issued _ _ | ccRtcclkOk at_phase issued _ _ =>
    rw [at_phase, issued] at written
    exact .of_writes rfl (coldWritten_of_issued rfl written)
  case ccSystickInit at_phase _ =>
    rw [at_phase] at written
    refine .of_writes rfl ?_
    simp_all [coldWritten, coldDone, Machine.coldRetained]
  -- The boot after it writes no clock field.
  case siConsole at_phase | siRtc at_phase | siLeds at_phase | siPins at_phase =>
    rw [at_phase] at written
    exact .of_writes rfl written
  case siLppolicyBattery at_phase _ | siLppolicyExternal at_phase _ =>
    rw [at_phase] at written
    exact .of_rebuilds rfl fun _ _ => written
  case siAdc at_phase => exact .of_rebuilds rfl (inv.cold_branch (.inl at_phase))
  case siRadioFirst at_phase cmd cold => exact .of_writes rfl (inv.cold_branch (.inr at_phase) cmd cold)
  case esHaltIssue at_phase _ | slHaltIssue at_phase _ => exact .of_free (congrArg coldRole at_phase)
  all_goals exact .of_free rfl

theorem FsmEffect.coldInv {d : Draws} {s t : State} (h : FsmEffect d s t) (seq : SequencerInv s) (inv : ColdInv s) :
    ColdInv t :=
  (coldInv_iff t).2 ⟨h.coldReady seq inv, h.coldRetained inv⟩

/-! ### The other agents -/

/-- The clock fields the FSM writes are the same. -/
structure SameWrites (c c' : ClkCtrl) : Prop where
  vosFull : c'.vosFull = c.vosFull
  hseOn : c'.hseOn = c.hseOn
  lseOn : c'.lseOn = c.lseOn
  pllOn : c'.pllOn = c.pllOn
  pllSrcHse : c'.pllSrcHse = c.pllSrcHse
  sw : c'.sw = c.sw
  busdivSet : c'.busdivSet = c.busdivSet
  rtcselLse : c'.rtcselLse = c.rtcselLse
  systickOn : c'.systickOn = c.systickOn

theorem SameWrites.of_eq {c c' : ClkCtrl} (same : c' = c) : SameWrites c c' := by
  subst same
  constructor <;> rfl

theorem SameWrites.coldDone {c c' : ClkCtrl} (h : SameWrites c c') : coldDone c' = coldDone c := by
  simp [Machine.coldDone, Machine.coldRetained, h.vosFull, h.hseOn, h.lseOn, h.pllOn, h.pllSrcHse, h.sw, h.busdivSet,
    h.rtcselLse, h.systickOn]

theorem SameWrites.coldWritten {c c' : ClkCtrl} (h : SameWrites c c') (issued : Bool) (p : Phase) :
    coldWritten c' issued p = coldWritten c issued p := by
  cases p <;>
    simp [Machine.coldWritten, h.coldDone, h.vosFull, h.hseOn, h.lseOn, h.pllOn, h.pllSrcHse, h.sw, h.busdivSet,
      h.rtcselLse]

theorem EnvEffect.sameWrites {s t : State} (h : EnvEffect s t) : SameWrites s.clk t.clk := by
  cases h <;> constructor <;> rfl

theorem EnvEffect.coldPath {s t : State} (h : EnvEffect s t) : t.coldPath = s.coldPath := by
  cases h <;> rfl

theorem ColdReady.congr {s t : State} (ready : ColdReady s) (control : SameControl s t)
    (writes : SameWrites s.clk t.clk) (path : t.coldPath = s.coldPath) : ColdReady t := by
  obtain ⟨phase, cmd, issued⟩ := control
  constructor <;> simp only [phase, cmd, issued, path, writes.coldDone, writes.coldWritten]
  · exact ready.written
  · exact ready.cold_branch
  · exact ready.resume_branch

theorem ColdInv.congr {s t : State} (inv : ColdInv s) (control : SameControl s t) (clk : t.clk = s.clk)
    (path : t.coldPath = s.coldPath) (life : t.lifecycle = s.lifecycle) : ColdInv t := by
  obtain ⟨ready, retained⟩ := (coldInv_iff s).1 inv
  exact (coldInv_iff t).2 ⟨ready.congr control (.of_eq clk) path, by rw [life, clk]; exact retained⟩

theorem ColdReady.of_accepted {op : SeqOp} {s t : State} (h : Accepted op s t) : ColdReady t := by
  have phase := h.seqPhase
  cases op
  case clkCold => exact .of_writes (congrArg coldRole phase) (by rw [phase, h.issued]; rfl)
  case clkResume => exact .of_resumes (congrArg coldRole phase) fun init => nomatch h.curCmd.symm.trans init
  all_goals exact .of_free (congrArg coldRole phase)

theorem AccessEffect.coldInv {s t : State} (h : AccessEffect s t) (inv : ColdInv s) : ColdInv t := by
  have frame := access_frame h
  rcases h.control with same | ⟨op, accepted⟩
  · exact inv.congr same frame.clk frame.coldPath frame.lifecycle
  · exact (coldInv_iff t).2 ⟨.of_accepted accepted, by rw [frame.lifecycle, frame.clk]; exact inv.initialized⟩

theorem handlerEntry_coldInv {src : Source} {s : State} (inv : ColdInv s) : ColdInv (handlerEntry src s) :=
  inv.congr (handlerEntry_control src s) (handlerEntry_clk src s) (handlerEntry_coldPath src s)
    (handlerEntry_lifecycle src s)

theorem envStep_coldInv {e : EnvAction} {s : State} (inv : ColdInv s) : ColdInv (envStep e s) := by
  have effect := envStep_effect e s
  refine (coldInv_iff _).2 ⟨((coldInv_iff s).1 inv).1.congr effect.control effect.sameWrites effect.coldPath, fun init => ?_⟩
  exact effect.clkEffect.coldRetained (inv.initialized (effect.lifecycle.symm.trans init))

theorem resetWith_coldInv (d : ResetDraws) (s : State) : ColdInv (resetWith d s) :=
  (coldInv_iff _).2 ⟨.of_free rfl, nofun⟩

/-- Settles O24: the two invariants together are kept by each agent's step. -/
theorem coldSequenceInvariantKept : Obligations.ColdSequenceInvariantKept :=
  step_keeps_sequenced ColdInv (fun _ _ inv => inv.congr ⟨rfl, rfl, rfl⟩ rfl rfl rfl)
    (fun _ _ inv => inv.congr ⟨rfl, rfl, rfl⟩ rfl rfl rfl) (fun _ _ effect _ => effect.coldInv)
    (fun _ _ _ => FsmEffect.coldInv) (fun _ _ _ => handlerEntry_coldInv) (fun _ _ => envStep_coldInv)
    resetWith_coldInv

end Sys2Proof.Machine
end

section
/-! SUPPORT. Proofs about the calibrator's invariant (R35, R190 to R196, R235, R237): its state, its timer, its interrupt
and WAKE_LATENCY stay in step, and CAL_STATE = 2 stays until reset. -/

namespace Sys2Proof.Machine

/-! ### The calibrator's own fields -/

/-- The calibrator's fields are the same. -/
structure SameCal (s t : State) : Prop where
  calState : t.calState = s.calState
  cal : t.cal = s.cal
  enable : t.enable.calTimer = s.enable.calTimer
  pending : t.pending.calTimer = s.pending.calTimer
  wakeLatency : t.wakeLatency = s.wakeLatency

theorem CalInv.congr {s t : State} (inv : CalInv s) (phase : t.seqPhase = s.seqPhase) (same : SameCal s t) :
    CalInv t := by
  obtain ⟨calState, cal, enable, pending, latency⟩ := same
  constructor <;> simp only [phase, calState, cal, enable, pending, latency]
  · exact inv.calibrating
  · exact inv.arm_uncalibrated
  · exact inv.waiting
  · exact inv.recording
  · exact inv.armed_waits
  · exact inv.enable_is_armed
  · exact inv.pending_is_armed
  · exact inv.recorded

/-- The phases in which the calibrator arms, waits and records. -/
def inCalibration : Phase → Bool
  | .calArm | .calWait | .calRecord => true
  | _ => false

/-- Outside those phases the invariant reads the calibrator's fields alone. -/
theorem CalInv.of_outside {s t : State} (inv : CalInv s) (before : inCalibration s.seqPhase = false)
    (after : inCalibration t.seqPhase = false) (same : SameCal s t) : CalInv t := by
  have outside {p : Phase} (h : inCalibration p = false) : p ≠ .calArm ∧ p ≠ .calWait ∧ p ≠ .calRecord := by
    refine ⟨?_, ?_, ?_⟩ <;> rintro rfl <;> cases h
  obtain ⟨_, noWait, noRecord⟩ := outside before
  obtain ⟨notArm, notWait, notRecord⟩ := outside after
  obtain ⟨calState, cal, enable, pending, latency⟩ := same
  constructor <;> simp only [notArm, notWait, notRecord, calState, cal, enable, pending, latency]
  · simpa [noWait, noRecord] using inv.calibrating
  · exact nofun
  · exact nofun
  · exact nofun
  · simpa [noWait] using inv.armed_waits
  · exact inv.enable_is_armed
  · exact inv.pending_is_armed
  · exact inv.recorded

/-! ### The FSM -/

theorem CalInv.not_armed {s : State} (inv : CalInv s) (elsewhere : s.seqPhase ≠ .calWait) :
    s.cal.timerArmed = false :=
  eq_false_of_ne_true fun armed => elsewhere (inv.armed_waits armed)

theorem CalInv.calArm {s : State} (inv : CalInv s) (at_phase : s.seqPhase = .calArm) : CalInv (calArm s) where
  calibrating := by simp [Machine.calArm]
  arm_uncalibrated := nofun
  waiting _ := rfl
  recording := nofun
  armed_waits _ := rfl
  enable_is_armed := rfl
  pending_is_armed _ := rfl
  recorded := by simpa [Machine.calArm, inv.arm_uncalibrated at_phase] using inv.recorded

/-- CAL_CHECK's way to CAL_ARM: what is neither Calibrated nor in calibration is Uncalibrated. -/
theorem CalInv.calCheck {s : State} (inv : CalInv s) (at_phase : s.seqPhase = .calCheck)
    (cal : s.calState ≠ .calibrated) : CalInv { s with seqPhase := .calArm } where
  calibrating := by simpa [at_phase] using inv.calibrating
  arm_uncalibrated _ := by
    have notNow : s.calState ≠ .calibrating := by simp [inv.calibrating, at_phase]
    revert cal notNow
    cases s.calState <;> simp
  waiting := nofun
  recording := nofun
  armed_waits armed := nomatch armed.symm.trans (inv.not_armed (by simp [at_phase]))
  enable_is_armed := inv.enable_is_armed
  pending_is_armed := inv.pending_is_armed
  recorded := inv.recorded

theorem CalInv.calWait {s : State} (inv : CalInv s) (at_phase : s.seqPhase = .calWait) (cond : s.cal.calDone = true) :
    CalInv (goto .calRecord s) where
  calibrating := by simpa [at_phase] using inv.calibrating
  arm_uncalibrated := nofun
  waiting := nofun
  recording _ := cond
  armed_waits armed := by simp [inv.waiting at_phase, cond] at armed
  enable_is_armed := inv.enable_is_armed
  pending_is_armed := inv.pending_is_armed
  recorded := inv.recorded

/-- CAL_RECORD's write, and its return to a phase outside calibration. -/
theorem CalInv.calRecord {s t : State} (inv : CalInv s) (at_phase : s.seqPhase = .calRecord)
    (after : inCalibration t.seqPhase = false) (calState : t.calState = .calibrated) (cal : t.cal = s.cal)
    (enable : t.enable = s.enable) (pending : t.pending = s.pending) (recorded : t.wakeLatency.isSome = true) :
    CalInv t := by
  have notArmed := inv.not_armed (by simp [at_phase])
  constructor <;> simp only [calState, cal, enable, pending, recorded, notArmed]
  · revert after
    cases t.seqPhase <;> simp [inCalibration]
  · intro arm
    simp [arm, inCalibration] at after
  · intro wait
    simp [wait, inCalibration] at after
  · intro record
    simp [record, inCalibration] at after
  · exact nofun
  · exact inv.enable_is_armed.trans notArmed
  · exact fun pend => notArmed.symm.trans (inv.pending_is_armed pend)

theorem FsmEffect.calInv {d : Draws} {s t : State} (h : FsmEffect d s t) (inv : CalInv s) : CalInv t := by
  cases h
  case calCheckArm at_phase cal => exact inv.calCheck at_phase cal
  case calArm at_phase => exact inv.calArm at_phase
  case calWaitDone at_phase cond => exact inv.calWait at_phase cond
  case calRecordInit at_phase _ | calRecordDone at_phase _ => exact inv.calRecord at_phase rfl rfl rfl rfl rfl rfl
  case ccVosIssue at_phase _ | ccOscIssue at_phase _ | ccPllIssue at_phase _ | ccSysclkIssue at_phase _
      | ccRtcclkIssue at_phase _ | crVosIssue at_phase _ | crHseIssue at_phase _ | crPllIssue at_phase _
      | crSwIssue at_phase _ | esHaltIssue at_phase _ | slHaltIssue at_phase _ =>
    exact inv.congr rfl ⟨rfl, rfl, rfl, rfl, rfl⟩
  case esCsBegin at_phase | xsCsBegin at_phase =>
    exact inv.of_outside (by rw [at_phase]; rfl) rfl ⟨csBegin_calState s, csBegin_cal s,
      congrArg _ (csBegin_enable s), congrArg _ (csBegin_pending s), csBegin_wakeLatency s⟩
  case esCsEnd at_phase | xsCsEnd at_phase =>
    exact inv.of_outside (by rw [at_phase]; rfl) rfl ⟨csEnd_calState _ s, csEnd_cal _ s,
      congrArg _ (csEnd_enable _ s), congrArg _ (csEnd_pending _ s), csEnd_wakeLatency _ s⟩
  all_goals exact inv.of_outside (by rw [‹s.seqPhase = _›]; rfl) rfl ⟨rfl, rfl, rfl, rfl, rfl⟩

/-! ### The other agents -/

theorem AccessEffect.calInv {s t : State} (h : AccessEffect s t) (inv : CalInv s) : CalInv t := by
  have frame := access_frame h
  have same : SameCal s t := ⟨frame.calState, frame.cal, congrArg _ frame.enable, congrArg _ frame.pending, frame.wakeLatency⟩
  rcases h.control with control | ⟨op, accepted⟩
  · exact inv.congr control.seqPhase same
  · refine inv.of_outside (by rw [accepted.idle]; rfl) ?_ same
    rw [accepted.seqPhase]
    cases op <;> rfl

/-- The timer's handler runs while CAL_WAIT waits for it, the one phase in which its interrupt is pending (R237). -/
theorem handlerEntry_calTimer_calInv {s : State} (pending : s.pending.calTimer = true) (inv : CalInv s) :
    CalInv (handlerEntry .calTimer s) := by
  have at_phase := inv.armed_waits (inv.pending_is_armed pending)
  exact
    { calibrating := inv.calibrating
      arm_uncalibrated := inv.arm_uncalibrated
      waiting := fun _ => rfl
      recording := fun _ => rfl
      armed_waits := nofun
      enable_is_armed := rfl
      pending_is_armed := nofun
      recorded := inv.recorded }

theorem handlerEntry_calInv {src : Source} {s : State} (enabled : handlerEnabled s src = true) (inv : CalInv s) :
    CalInv (handlerEntry src s) := by
  cases src with
  | calTimer =>
    simp only [handlerEnabled, Bool.and_eq_true] at enabled
    exact handlerEntry_calTimer_calInv enabled.1.2 inv
  | extiWake | rtcAlarm | sysTick | periph => exact inv.congr rfl ⟨rfl, rfl, rfl, rfl, rfl⟩

/-- The environment makes CAL_TIMER pending only while the timer is armed (R235). -/
theorem CalInv.pend {src : Source} {s : State} (inv : CalInv s) (may : mayPend s src = true) : CalInv (pend src s) := by
  cases src with
  | calTimer =>
    simp only [mayPend, Bool.and_eq_true] at may
    exact { inv with pending_is_armed := fun _ => may.1 }
  | extiWake | rtcAlarm | sysTick | periph => exact inv.congr rfl ⟨rfl, rfl, rfl, rfl, rfl⟩

theorem EnvEffect.calInv {s t : State} (h : EnvEffect s t) (inv : CalInv s) : CalInv t := by
  cases h
  case pended may => exact inv.pend may
  case enables src b => exact inv.congr rfl ⟨rfl, rfl, by cases src <;> rfl, rfl, rfl⟩
  all_goals exact inv.congr rfl ⟨rfl, rfl, rfl, rfl, rfl⟩

theorem resetWith_calInv (d : ResetDraws) (s : State) : CalInv (resetWith d s) := by
  constructor <;> simp [resetWith]

/-- Settles O25: each agent's step keeps the invariant. -/
theorem calibratorInvariantKept : Obligations.CalibratorInvariantKept := fun s t inv h =>
  step_keeps CalInv (fun _ _ inv => inv.congr rfl ⟨rfl, rfl, rfl, rfl, rfl⟩)
    (fun _ _ inv => inv.congr rfl ⟨rfl, rfl, rfl, rfl, rfl⟩) (fun _ _ => AccessEffect.calInv)
    (fun _ _ _ run => (fsmStep_effect run).calInv) (fun _ _ => handlerEntry_calInv) (fun e u => (envStep_effect e u).calInv)
    (fun d s _ => resetWith_calInv d s) s t h inv

/-! ### CAL_STATE = 2 stays (R196) -/

theorem EnvEffect.calState {s t : State} (h : EnvEffect s t) :
    t.calState = s.calState ∧ t.counters = s.counters := by
  cases h <;> exact ⟨rfl, rfl⟩

theorem FsmEffect.calState {d : Draws} {s t : State} (h : FsmEffect d s t) :
    t.calState = s.calState ∨ s.seqPhase = .calArm ∨ s.seqPhase = .calRecord := by
  cases h
  case calArm at_phase => exact .inr (.inl at_phase)
  case calRecordInit at_phase _ | calRecordDone at_phase _ => exact .inr (.inr at_phase)
  case esCsBegin | xsCsBegin => exact .inl (csBegin_calState s)
  case esCsEnd | xsCsEnd => exact .inl (csEnd_calState _ s)
  all_goals exact .inl rfl

/-- CAL_ARM is entered only by CAL_CHECK, from a state that is not Calibrated (R191). -/
theorem FsmEffect.enters_calArm {d : Draws} {s t : State} (h : FsmEffect d s t) (arm : t.seqPhase = .calArm) :
    s.calState ≠ .calibrated := by
  cases h
  case calCheckArm cal => exact cal
  case ccVosIssue at_phase _ | ccOscIssue at_phase _ | ccPllIssue at_phase _ | ccSysclkIssue at_phase _
      | ccRtcclkIssue at_phase _ | crVosIssue at_phase _ | crHseIssue at_phase _ | crPllIssue at_phase _
      | crSwIssue at_phase _ | esHaltIssue at_phase _ | slHaltIssue at_phase _ =>
    cases at_phase.symm.trans arm
  all_goals cases arm

/-- Only CAL_ARM counts an arming (R192). -/
theorem FsmEffect.armings {d : Draws} {s t : State} (h : FsmEffect d s t) :
    t.counters.calArm = s.counters.calArm ∨ s.seqPhase = .calArm := by
  cases h
  case calArm at_phase => exact .inr at_phase
  case esCsBegin | xsCsBegin => exact .inl (congrArg _ (csBegin_counters s))
  case esCsEnd | xsCsEnd => exact .inl (congrArg _ (csEnd_counters _ s))
  all_goals exact .inl rfl

theorem step_calState {s t : State} (h : step s = .next t) (noReset : resets s = false) :
    t.calState = s.calState ∨ s.seqPhase = .calArm ∨ s.seqPhase = .calRecord := by
  obtain ⟨_, _, agent⟩ := step_agent h noReset
  cases agent with
  | fsm _ _ effect => exact effect.calState
  | env _ effect => exact .inl effect.calState.1
  | access _ effect => exact .inl (access_frame effect).calState
  | handler src _ _ _ run => exact .inl ((runAccesses_frame run).calState.trans (handlerEntry_calState src _))
  | unchanged => exact .inl rfl

theorem step_armings {s t : State} (h : step s = .next t) (noReset : resets s = false) :
    t.counters.calArm = s.counters.calArm ∨ s.seqPhase = .calArm := by
  obtain ⟨_, _, agent⟩ := step_agent h noReset
  cases agent with
  | fsm _ _ effect => exact effect.armings
  | env _ effect => exact .inl (congrArg _ effect.calState.2)
  | access _ effect => exact .inl (congrArg _ (access_frame effect).counters)
  | handler src _ _ _ run =>
    exact .inl (congrArg _ ((runAccesses_frame run).counters.trans (handlerEntry_counters src _)))
  | unchanged => exact .inl rfl

theorem step_enters_calArm {s t : State} (h : step s = .next t) (noReset : resets s = false)
    (arm : t.seqPhase = .calArm) : s.calState ≠ .calibrated ∨ s.seqPhase = .calArm := by
  obtain ⟨_, _, agent⟩ := step_agent h noReset
  rcases agent.seqPhase with ⟨_, effect⟩ | kept | ⟨_, op, entered⟩
  · exact .inl (effect.enters_calArm arm)
  · exact .inr (kept.symm.trans arm)
  · have first := entered.symm.trans arm
    cases op <;> cases first

/-- Settles O31: in a Calibrated state the invariant rules out the phases that write CAL_STATE or count an arming. -/
theorem calibratedStaysUntilReset : Obligations.CalibratedStaysUntilReset := by
  refine ⟨fun s t h noReset changed => (step_calState h noReset).resolve_left changed,
    fun s t inv calibrated h noReset => ?_⟩
  have notArm : s.seqPhase ≠ .calArm := fun arm => nomatch calibrated.symm.trans (inv.arm_uncalibrated arm)
  have notRecord : s.seqPhase ≠ .calRecord := fun record =>
    nomatch calibrated.symm.trans (inv.calibrating.2 (.inr record))
  refine ⟨?_, fun arm => ?_, (step_armings h noReset).resolve_right notArm⟩
  · exact ((step_calState h noReset).resolve_right (not_or.2 ⟨notArm, notRecord⟩)).trans calibrated
  · exact (step_enters_calArm h noReset arm).elim (fun notYet => notYet calibrated) notArm

end Sys2Proof.Machine
end

section
/-! SUPPORT. Proofs about the Critical Section unit (43_critical_section.md): a Begin and its End (R210, R211), and that an
open section keeps interrupts masked (R36). -/

namespace Sys2Proof.Machine

/-! ### The commands -/

theorem csBegin_of_closed {s : State} (closed : s.csActive = false) :
    csBegin s = { s with csToken := s.ie, ie := false, csActive := true, evt := s.evt ++ [.csBegin s.ie] } := by
  simp [csBegin, closed]

theorem csBegin_of_open {s : State} (opened : s.csActive = true) : csBegin s = raiseFault .csNest s := by
  simp [csBegin, opened]

theorem csEnd_of_match {s : State} (opened : s.csActive = true) :
    csEnd s.csToken s = { s with ie := s.csToken, csActive := false, evt := s.evt ++ [.csEnd s.csToken] } := by
  simp [csEnd, opened]

theorem csEnd_of_closed (t : Bool) {s : State} (closed : s.csActive = false) :
    csEnd t s = raiseFault .csUnpaired s := by
  simp [csEnd, closed]

theorem csEnd_of_mismatch {t : Bool} {s : State} (opened : s.csActive = true) (other : s.csToken ≠ t) :
    csEnd t s = raiseFault .csTokenMismatch s := by
  simp [csEnd, opened, other.symm]

/-- CS_TOKEN is STATUS[11] (R24). -/
theorem statusWord_csToken (s : State) : (statusWord s).extractLsb' 11 1 = BitVec.ofBool s.csToken := by
  simp [statusWord, extract_or, extract_bitAt_same, extract_bitAt_other, extract_fieldAt_other]

theorem tokenBit_ofBool (b : Bool) : tokenBit (BitVec.ofBool b) = b := by
  cases b <;> rfl

theorem exec_csBegin_of_closed {s : State} (closed : s.csActive = false) :
    exec .csBegin s =
      .next { s with csToken := s.ie, ie := false, csActive := true, evt := s.evt ++ [.csBegin s.ie] } :=
  congrArg Host.Outcome.next (csBegin_of_closed closed)

theorem exec_csEnd_of_match {s : State} {t : BitVec 1} (opened : s.csActive = true) (token : s.csToken = tokenBit t) :
    exec (.csEnd t) s =
      .next { s with ie := tokenBit t, csActive := false, evt := s.evt ++ [.csEnd (tokenBit t)] } := by
  rw [exec, execCsEnd, ← token, csEnd_of_match opened]

theorem presentCommand_of_no_command {w : Word} (s : State) (none : ∀ i, w ≠ encodeWord i) :
    presentCommand w s = .next (raiseFault .illegalCmd s) := by
  unfold presentCommand
  cases decoded : decodeWord w with
  | ok i => exact absurd (decodeWord_eq_ok_iff.1 decoded) (none i)
  | error e => rfl

/-- Settles O11: Begin saves IE in the token, STATUS shows the token, and the End restores it. -/
theorem csPairRestoresInterruptEnable : Obligations.CsPairRestoresInterruptEnable := by
  intro s closed
  refine ⟨_, _, exec_csBegin_of_closed closed, rfl, exec_csEnd_of_match rfl ?_, ?_, csEnd_of_match rfl |>.trans ?_⟩
  · rw [statusWord_csToken, tokenBit_ofBool]
  · rw [statusWord_csToken, tokenBit_ofBool]
    simp [closed]
  · rw [statusWord_csToken, tokenBit_ofBool]

/-- Settles O9: the cases of Begin; a word with its opcode that is not its word is no command's. -/
theorem csBeginMasksInterrupts : Obligations.CsBeginMasksInterrupts := by
  refine ⟨fun s closed => exec_csBegin_of_closed closed,
    fun s opened => congrArg Host.Outcome.next (csBegin_of_open opened),
    fun s closed => ⟨_, exec_csBegin_of_closed closed, statusWord_csToken _⟩, rfl, fun s w op other => ?_⟩
  refine presentCommand_of_no_command s ?_
  rintro i rfl
  cases i with
  | csBegin => exact other rfl
  | csEnd t => revert t op; decide
  | _ => exact absurd op (by decide)

/-- Settles O10: the cases of End; a word with its opcode that is neither of its words is no command's. -/
theorem csEndRestoresInterrupts : Obligations.CsEndRestoresInterrupts := by
  refine ⟨fun s t opened token => exec_csEnd_of_match opened token,
    fun s t closed => congrArg Host.Outcome.next (csEnd_of_closed _ closed),
    fun s t opened token => congrArg Host.Outcome.next (csEnd_of_mismatch opened token), rfl, rfl,
    fun s w op not0 not1 => ?_⟩
  refine presentCommand_of_no_command s ?_
  rintro i rfl
  cases i with
  | csEnd t => revert t; decide
  | _ => exact absurd op (by decide)

/-! ### The invariant -/

/-- A Begin masks interrupts as it opens the section; an End closes it. -/
theorem CommandEffect.criticalInv {s t : State} (h : CommandEffect s t) (inv : CriticalInv s) : CriticalInv t := by
  cases h with
  | faulted | started => exact inv
  | begun => exact fun _ => rfl
  | ended => exact nofun

theorem AccessEffect.criticalInv {s t : State} (h : AccessEffect s t) (inv : CriticalInv s) : CriticalInv t := by
  cases h with
  | reads | badRead | badWrite => exact inv
  | commands _ effect => exact effect.criticalInv inv

theorem csBegin_criticalInv {s : State} (inv : CriticalInv s) : CriticalInv (csBegin s) :=
  (csBegin_effect s).criticalInv inv

theorem csEnd_criticalInv {t : Bool} {s : State} (inv : CriticalInv s) : CriticalInv (csEnd t s) :=
  (csEnd_effect t s).criticalInv inv

/-- The FSM writes IE and CS_ACTIVE by the Begin and End effects alone (R212). -/
theorem FsmEffect.criticalInv {d : Draws} {s t : State} (h : FsmEffect d s t) (inv : CriticalInv s) :
    CriticalInv t := by
  cases h
  case esCsBegin | xsCsBegin => exact csBegin_criticalInv inv
  case esCsEnd | xsCsEnd => exact csEnd_criticalInv inv
  all_goals exact inv

theorem handlerEntry_criticalInv {src : Source} {s : State} (inv : CriticalInv s) : CriticalInv (handlerEntry src s) := by
  rwa [CriticalInv, handlerEntry_csActive, handlerEntry_ie]

theorem EnvEffect.criticalInv {s t : State} (h : EnvEffect s t) (inv : CriticalInv s) : CriticalInv t := by
  cases h <;> exact inv

/-- Settles O26: each agent's step keeps the invariant. -/
theorem criticalSectionInvariantKept : Obligations.CriticalSectionInvariantKept := fun s t inv h =>
  step_keeps CriticalInv (fun _ _ inv => inv) (fun _ _ inv => inv) (fun _ _ => AccessEffect.criticalInv)
    (fun _ _ _ run => (fsmStep_effect run).criticalInv) (fun _ _ _ => handlerEntry_criticalInv)
    (fun e u => (envStep_effect e u).criticalInv) (fun _ _ _ => nofun) s t h inv

end Sys2Proof.Machine
end

section
/-! SUPPORT. Proofs about Stop's teardown (R69, R122 to R129, R289): it is complete before the halt. -/

namespace Sys2Proof.Machine

/-- How much of the teardown a phase relies on: 1 the radio bus, 2 the ADC, 3 the pins, 4 the brownout detector, 5 the
low-power modes as well. -/
def tornDown : Phase → Nat
  | .esAdcDeinit => 1
  | .esPins => 2
  | .esCsEnd | .esBorOff => 3
  | .esClrWuf | .esUlpFwu => 4
  | .esHalt => 5
  | _ => 0

/-- The invariant by `tornDown`. -/
structure Teardown (n : Nat) (s : State) : Prop where
  radio : 1 ≤ n → s.periph.radioBusInit = false
  adc : 2 ≤ n → s.periph.adcInit = false
  pins : 3 ≤ n → s.periph.stopPinsLp = true
  bor : 4 ≤ n → s.pwr.borEn = false
  low_power : 5 ≤ n → s.pwr.ulp = true ∧ s.pwr.fwu = true

section
variable (p : Phase)

theorem one_le_tornDown :
    p ∈ [Phase.esAdcDeinit, .esPins, .esCsEnd, .esBorOff, .esClrWuf, .esUlpFwu, .esHalt] ↔ 1 ≤ tornDown p := by
  cases p <;> decide

theorem two_le_tornDown :
    p ∈ [Phase.esPins, .esCsEnd, .esBorOff, .esClrWuf, .esUlpFwu, .esHalt] ↔ 2 ≤ tornDown p := by
  cases p <;> decide

theorem three_le_tornDown : p ∈ [Phase.esCsEnd, .esBorOff, .esClrWuf, .esUlpFwu, .esHalt] ↔ 3 ≤ tornDown p := by
  cases p <;> decide

theorem four_le_tornDown : p ∈ [Phase.esClrWuf, .esUlpFwu, .esHalt] ↔ 4 ≤ tornDown p := by
  cases p <;> decide

theorem five_le_tornDown : p = .esHalt ↔ 5 ≤ tornDown p := by
  cases p <;> decide

end

theorem teardownInv_iff (s : State) :
    TeardownInv s ↔ Teardown (tornDown s.seqPhase) s ∧ (s.powerMode = .stop → s.pwr.regLp = true) := by
  constructor
  · rintro ⟨radio, adc, pins, bor, low, regulator⟩
    rw [one_le_tornDown] at radio
    rw [two_le_tornDown] at adc
    rw [three_le_tornDown] at pins
    rw [four_le_tornDown] at bor
    rw [five_le_tornDown] at low
    exact ⟨⟨radio, adc, pins, bor, low⟩, regulator⟩
  · rintro ⟨⟨radio, adc, pins, bor, low⟩, regulator⟩
    rw [← one_le_tornDown] at radio
    rw [← two_le_tornDown] at adc
    rw [← three_le_tornDown] at pins
    rw [← four_le_tornDown] at bor
    rw [← five_le_tornDown] at low
    exact ⟨radio, adc, pins, bor, low, regulator⟩

theorem Teardown.zero (s : State) : Teardown 0 s :=
  ⟨nofun, nofun, nofun, nofun, nofun⟩

theorem Teardown.congr {n m : Nat} {s t : State} (done : Teardown n s) (le : m ≤ n) (periph : t.periph = s.periph)
    (pwr : t.pwr = s.pwr) : Teardown m t := by
  constructor <;> intro h <;> simp only [periph, pwr]
  · exact done.radio (Nat.le_trans h le)
  · exact done.adc (Nat.le_trans h le)
  · exact done.pins (Nat.le_trans h le)
  · exact done.bor (Nat.le_trans h le)
  · exact done.low_power (Nat.le_trans h le)

/-- The invariant reads SEQ_PHASE, POWER_MODE, PERIPH and four bits of PWRCTRL. -/
theorem TeardownInv.congr {s t : State} (inv : TeardownInv s) (phase : t.seqPhase = s.seqPhase)
    (mode : t.powerMode = s.powerMode) (periph : t.periph = s.periph) (pwr : t.pwr = s.pwr) : TeardownInv t := by
  constructor <;> simp only [phase, mode, periph, pwr]
  · exact inv.radio
  · exact inv.adc
  · exact inv.pins
  · exact inv.bor
  · exact inv.low_power
  · exact inv.regulator

/-- The CPU stops only in ES_HALT, so in every other phase the regulator's mode is free. -/
theorem TeardownInv.of_running {n : Nat} {s : State} (seq : SequencerInv s) (stage : tornDown s.seqPhase = n)
    (running : n < 5) (done : Teardown n s) : TeardownInv s := by
  refine (teardownInv_iff s).2 ⟨stage ▸ done, fun stop => ?_⟩
  have halted := (seq.stop_mode.1 stop).1
  rw [halted] at stage
  exact absurd running (by rw [← stage]; decide)

theorem TeardownInv.of_nothing {s : State} (seq : SequencerInv s) (stage : tornDown s.seqPhase = 0) : TeardownInv s :=
  .of_running seq stage (by decide) (.zero s)

/-! ### The FSM -/

/-- Each teardown phase adds its own write to what the phases before it have done. -/
theorem FsmEffect.teardownInv {d : Draws} {s t : State} (h : FsmEffect d s t) (seq : SequencerInv s)
    (inv : TeardownInv s) : TeardownInv t := by
  have after := h.sequencerInv seq
  obtain ⟨done, regulator⟩ := (teardownInv_iff s).1 inv
  have oneStep := seq.not_issued
  cases h
  case esRadioDeinit => exact .of_running (n := 1) after rfl (by decide) ⟨fun _ => rfl, nofun, nofun, nofun, nofun⟩
  case esAdcDeinit at_phase =>
    rw [at_phase] at done
    exact .of_running (n := 2) after rfl (by decide) ⟨fun _ => done.radio (by decide), fun _ => rfl, nofun, nofun, nofun⟩
  case esPins at_phase =>
    rw [at_phase] at done
    exact .of_running (n := 3) after rfl (by decide)
      ⟨fun _ => done.radio (by decide), fun _ => done.adc (by decide), fun _ => rfl, nofun, nofun⟩
  case esCsEnd at_phase =>
    rw [at_phase] at done
    exact .of_running (n := 3) after rfl (by decide) (done.congr (by decide) (csEnd_periph _ s) (csEnd_pwr _ s))
  case esBorOff at_phase =>
    rw [at_phase] at done
    exact .of_running (n := 4) after rfl (by decide)
      ⟨fun _ => done.radio (by decide), fun _ => done.adc (by decide), fun _ => done.pins (by decide), fun _ => rfl, nofun⟩
  case esClrWuf at_phase =>
    rw [at_phase] at done
    exact .of_running (n := 4) after rfl (by decide) (done.congr (by decide) rfl rfl)
  case esUlpFwu at_phase =>
    have fresh := oneStep (by rw [at_phase]; rfl)
    rw [at_phase] at done
    exact (teardownInv_iff _).2
      ⟨⟨fun _ => done.radio (by decide), fun _ => done.adc (by decide), fun _ => done.pins (by decide),
        fun _ => done.bor (by decide), fun _ => ⟨rfl, rfl⟩⟩,
      fun stop => nomatch fresh.symm.trans (after.stop_mode.1 stop).2⟩
  case esHaltIssue =>
    exact (teardownInv_iff _).2 ⟨⟨done.radio, done.adc, done.pins, done.bor, done.low_power⟩, fun _ => rfl⟩
  case ccVosIssue at_phase _ | ccOscIssue at_phase _ | ccPllIssue at_phase _ | ccSysclkIssue at_phase _
      | ccRtcclkIssue at_phase _ | crVosIssue at_phase _ | crHseIssue at_phase _ | crPllIssue at_phase _
      | crSwIssue at_phase _ | slHaltIssue at_phase _ =>
    exact .of_nothing after (congrArg tornDown at_phase)
  all_goals exact .of_nothing after rfl

/-! ### The other agents -/

theorem AccessEffect.teardownInv {s t : State} (h : AccessEffect s t) (seq : SequencerInv s) (inv : TeardownInv s) :
    TeardownInv t := by
  have frame := access_frame h
  rcases h.control with same | ⟨op, accepted⟩
  · exact inv.congr same.seqPhase frame.powerMode frame.periph frame.pwr
  · refine .of_nothing (h.sequencerInv seq) ?_
    rw [accepted.seqPhase]
    cases op <;> rfl

theorem handlerEntry_teardownInv {src : Source} {s : State} (inv : TeardownInv s) : TeardownInv (handlerEntry src s) :=
  inv.congr (handlerEntry_seqPhase src s) (handlerEntry_powerMode src s) (handlerEntry_periph src s)
    (handlerEntry_pwr src s)

/-- Of PWRCTRL the environment moves PWR_SRC alone (R44). -/
theorem EnvEffect.teardownInv {s t : State} (h : EnvEffect s t) (inv : TeardownInv s) : TeardownInv t := by
  cases h
  case pwrSrc => exact { inv with }
  all_goals exact inv.congr rfl rfl rfl rfl

/-- Settles O27: each agent's step keeps the invariant together with the sequencer's. -/
theorem teardownInvariantKept : Obligations.TeardownInvariantKept :=
  step_keeps_sequenced TeardownInv (fun _ _ inv => inv.congr rfl rfl rfl rfl) (fun _ _ inv => inv.congr rfl rfl rfl rfl)
    (fun _ _ => AccessEffect.teardownInv) (fun _ _ _ => FsmEffect.teardownInv) (fun _ _ _ => handlerEntry_teardownInv)
    (fun e u => (envStep_effect e u).teardownInv) (fun d s => .of_nothing (resetWith_sequencerInv d s) rfl)

end Sys2Proof.Machine
end

section
/-! SUPPORT. Proofs about the console buffers (R43, R103): the collaborator and SI_CONSOLE keep their form and bounds. -/

namespace Sys2Proof.Machine

/-! ### One buffer -/

theorem Memory.mem_write {m : Memory} {i u : Nat} {c : Nat × Nat} (h : c ∈ m.write i u) : c = (i, u) ∨ c ∈ m := by
  induction m with
  | nil => exact .inl (List.mem_singleton.1 h)
  | cons d rest ih =>
    obtain ⟨k, v⟩ := d
    unfold Memory.write at h
    split at h
    · exact List.mem_cons.1 h
    · split at h
      · exact (List.mem_cons.1 h).imp_right (List.mem_cons_of_mem _)
      · rcases List.mem_cons.1 h with head | tail
        · exact .inr (head ▸ List.mem_cons_self)
        · exact (ih tail).imp_right (List.mem_cons_of_mem _)

/-- What the collaborator can do to a buffer (R43). -/
inductive RingEffect (p : Params) (r : Ring) : Ring → Prop where
  | unchanged : RingEffect p r r
  | head (i : Nat) (fits : i < p.consoleCap) : RingEffect p r { r with head := some i }
  | tail (i : Nat) (fits : i < p.consoleCap) : RingEffect p r { r with tail := some i }
  | store (i u : Nat) (fits : i < p.consoleCap ∧ u < 2 ^ p.consoleUnitBits) :
      RingEffect p r { r with contents := r.contents.write i u }

theorem Ring.act_effect (p : Params) (a : RingAction) (r : Ring) : RingEffect p r (r.act p a) := by
  unfold Ring.act
  split
  · cases a with
    | setHead i =>
      dsimp only
      split
      · exact .head i ‹_›
      · exact .unchanged
    | setTail i =>
      dsimp only
      split
      · exact .tail i ‹_›
      · exact .unchanged
    | store i u =>
      dsimp only
      split
      · exact .store i u ‹_›
      · exact .unchanged
  · exact .unchanged

theorem RingEffect.ringInv {p : Params} {r r' : Ring} (h : RingEffect p r r') (inv : RingInv p r) : RingInv p r' := by
  obtain ⟨canonical, head, tail, cells⟩ := inv
  cases h with
  | unchanged => exact ⟨canonical, head, tail, cells⟩
  | head i fits => exact ⟨canonical, by simpa using fits, tail, cells⟩
  | tail i fits => exact ⟨canonical, head, by simpa using fits, cells⟩
  | store i u fits =>
    refine ⟨Memory.wf_write _ i u canonical, head, tail, fun c member => ?_⟩
    rcases Memory.mem_write member with rfl | old
    · exact fits
    · exact cells c old

theorem RingEffect.isSome {p : Params} {r r' : Ring} (h : RingEffect p r r') (head : r.head.isSome) (tail : r.tail.isSome) :
    r'.head.isSome ∧ r'.tail.isSome := by
  cases h with
  | unchanged | store => exact ⟨head, tail⟩
  | head => exact ⟨rfl, tail⟩
  | tail => exact ⟨head, rfl⟩

/-- SI_CONSOLE empties a buffer that has room (R103). -/
theorem RingInv.emptied {p : Params} {r : Ring} (inv : RingInv p r) (capacity : 0 < p.consoleCap) :
    RingInv p r.emptied :=
  ⟨inv.canonical, by simpa [Ring.emptied] using capacity, by simpa [Ring.emptied] using capacity, inv.cells⟩

theorem RingInv.noValue (p : Params) : RingInv p Ring.noValue :=
  ⟨rfl, nofun, nofun, nofun⟩

/-! ### Both buffers -/

theorem ConsoleInv.congr {s t : State} (inv : ConsoleInv s) (params : t.params = s.params) (tx : t.txbuf = s.txbuf)
    (rx : t.rxbuf = s.rxbuf) (inited : t.periph.consoleInit = s.periph.consoleInit) : ConsoleInv t := by
  constructor <;> simp only [params, tx, rx, inited]
  · exact inv.capacity
  · exact inv.tx
  · exact inv.rx
  · exact inv.inited

theorem FsmEffect.consoleInv {d : Draws} {s t : State} (h : FsmEffect d s t) (inv : ConsoleInv s) : ConsoleInv t := by
  cases h
  case siConsole =>
    exact ⟨inv.capacity, inv.tx.emptied inv.capacity, inv.rx.emptied inv.capacity, fun _ => ⟨rfl, rfl, rfl, rfl⟩⟩
  case esCsBegin | xsCsBegin =>
    exact inv.congr (csBegin_params s) (csBegin_txbuf s) (csBegin_rxbuf s) (congrArg _ (csBegin_periph s))
  case esCsEnd | xsCsEnd =>
    exact inv.congr (csEnd_params _ s) (csEnd_txbuf _ s) (csEnd_rxbuf _ s) (congrArg _ (csEnd_periph _ s))
  all_goals exact inv.congr rfl rfl rfl rfl

theorem AccessEffect.consoleInv {s t : State} (h : AccessEffect s t) (inv : ConsoleInv s) : ConsoleInv t :=
  have frame := access_frame h
  inv.congr frame.params frame.txbuf frame.rxbuf (congrArg _ frame.periph)

theorem handlerEntry_consoleInv {src : Source} {s : State} (inv : ConsoleInv s) : ConsoleInv (handlerEntry src s) :=
  inv.congr (handlerEntry_params src s) (handlerEntry_txbuf src s) (handlerEntry_rxbuf src s)
    (congrArg _ (handlerEntry_periph src s))

theorem EnvEffect.consoleInv {s t : State} (h : EnvEffect s t) (inv : ConsoleInv s) : ConsoleInv t := by
  cases h
  case txbuf a =>
    have effect := Ring.act_effect s.params a s.txbuf
    refine ⟨inv.capacity, effect.ringInv inv.tx, inv.rx, fun init => ?_⟩
    obtain ⟨head, tail, rx⟩ := inv.inited init
    obtain ⟨head', tail'⟩ := effect.isSome head tail
    exact ⟨head', tail', rx⟩
  case rxbuf a =>
    have effect := Ring.act_effect s.params a s.rxbuf
    refine ⟨inv.capacity, inv.tx, effect.ringInv inv.rx, fun init => ?_⟩
    obtain ⟨txHead, txTail, head, tail⟩ := inv.inited init
    exact ⟨txHead, txTail, effect.isSome head tail⟩
  all_goals exact inv.congr rfl rfl rfl rfl

/-- Settles O28: each agent's step keeps the invariant. -/
theorem consoleInvariantKept : Obligations.ConsoleInvariantKept := fun s t inv h =>
  step_keeps ConsoleInv (fun _ _ inv => inv.congr rfl rfl rfl rfl) (fun _ _ inv => inv.congr rfl rfl rfl rfl)
    (fun _ _ => AccessEffect.consoleInv) (fun _ _ _ run => (fsmStep_effect run).consoleInv)
    (fun _ _ _ => handlerEntry_consoleInv) (fun e u => (envStep_effect e u).consoleInv)
    (fun _ u inv => ⟨inv.capacity, .noValue u.params, .noValue u.params, nofun⟩) s t h inv

end Sys2Proof.Machine
end

section
/-! SUPPORT. Proofs about the event history (R45): what each agent logs, that EVT and FAULT only grow (R230), and the order
in which the PLL's events stand in it (R159, R165). -/

namespace Sys2Proof.Machine

/-! ### What is logged -/

/-- The events that enable the PLL or switch to it are the ones the ordering is about. -/
def enablesPll : LogEvent → Bool
  | .clkWrite .pllOn _ => true
  | .clkWrite .sw _ => true
  | _ => false

/-- EVT grows by events that neither enable the PLL nor switch to it. -/
def LogsHarmless (s t : State) : Prop := ∃ l, t.evt = s.evt ++ l ∧ ∀ e ∈ l, enablesPll e = false

theorem LogsHarmless.of_eq {s t : State} (same : t.evt = s.evt) : LogsHarmless s t :=
  ⟨[], by simp [same], nofun⟩

theorem LogsHarmless.trans {s t u : State} (h : LogsHarmless s t) (k : LogsHarmless t u) : LogsHarmless s u := by
  obtain ⟨l, hl, harmless⟩ := h
  obtain ⟨m, hm, harmless'⟩ := k
  refine ⟨l ++ m, by rw [hm, hl, List.append_assoc], fun e member => ?_⟩
  exact (List.mem_append.1 member).elim (harmless e) (harmless' e)

theorem CommandEffect.logs {s t : State} (h : CommandEffect s t) : LogsHarmless s t := by
  cases h with
  | faulted | started | begun | ended => exact ⟨_, rfl, List.forall_mem_singleton.2 rfl⟩

theorem AccessEffect.logs {s t : State} (h : AccessEffect s t) : LogsHarmless s t := by
  cases h with
  | reads => exact .of_eq rfl
  | badRead | badWrite => exact ⟨_, rfl, List.forall_mem_singleton.2 rfl⟩
  | commands _ effect => exact effect.logs

theorem EnvEffect.evt {s t : State} (h : EnvEffect s t) : t.evt = s.evt := by
  cases h <;> rfl

theorem handlerEntry_logs (src : Source) (s : State) : LogsHarmless s (handlerEntry src s) :=
  ⟨_, handlerEntry_evt src s, List.forall_mem_singleton.2 rfl⟩

theorem csBegin_logs (s : State) : LogsHarmless s (csBegin s) := (csBegin_effect s).logs

theorem csEnd_logs (t : Bool) (s : State) : LogsHarmless s (csEnd t s) := (csEnd_effect t s).logs

/-- The FSM's steps log harmless events, but for the PLL's issue steps and the two switches. -/
theorem FsmEffect.logs {d : Draws} {s t : State} (h : FsmEffect d s t) :
    LogsHarmless s t ∨
    ((s.seqPhase = .ccPll ∨ s.seqPhase = .crPll) ∧ s.issued = false ∧ t = pllIssue s) ∨
    (s.seqPhase = .ccSysclk ∧ s.issued = false ∧ t = Machine.ccSysclkIssue s) ∨
    (s.seqPhase = .crSw ∧ s.issued = false ∧ t = Machine.crSwIssue s) := by
  cases h
  case ccPllIssue at_phase fresh => exact .inr (.inl ⟨.inl at_phase, fresh, rfl⟩)
  case crPllIssue at_phase fresh => exact .inr (.inl ⟨.inr at_phase, fresh, rfl⟩)
  case ccSysclkIssue at_phase fresh => exact .inr (.inr (.inl ⟨at_phase, fresh, rfl⟩))
  case crSwIssue at_phase fresh => exact .inr (.inr (.inr ⟨at_phase, fresh, rfl⟩))
  case siEntryCold | siEntryResume | siLppolicyExternal | calCheckSkipInit | calCheckSkipDone | calCheckArm | calWaitDone =>
    exact .inl (.of_eq rfl)
  case esCsBegin | xsCsBegin => exact .inl (csBegin_logs s)
  case esCsEnd | xsCsEnd => exact .inl (csEnd_logs _ s)
  case esPins =>
    exact .inl ⟨_, rfl, by cases s.params.hasUsb <;> simp [enablesPll]⟩
  case ccVosFail | ccOscFail | ccPllFail | ccSysclkFail | ccRtcclkFail =>
    exact .inl ⟨_, congrArg State.evt (coldFail_eq _ s), by simp [enablesPll]⟩
  all_goals exact .inl ⟨_, rfl, by simp [enablesPll]⟩

theorem FsmEffect.evt_grows {d : Draws} {s t : State} (h : FsmEffect d s t) : ∃ l, t.evt = s.evt ++ l := by
  rcases h.logs with ⟨l, logged, _⟩ | ⟨_, _, rfl⟩ | ⟨_, _, rfl⟩ | ⟨_, _, rfl⟩
  · exact ⟨l, logged⟩
  all_goals exact ⟨_, rfl⟩

/-! ### FAULT and EVT grow (R45, R230) -/

/-- No fault bit falls. -/
def FaultsKept (s t : State) : Prop := ∀ c, s.fault.get c = true → t.fault.get c = true

theorem FaultsKept.of_eq {s t : State} (same : t.fault = s.fault) : FaultsKept s t := fun c set => by rwa [same]

theorem raiseFault_faultsKept (c : FaultCode) (s : State) : FaultsKept s (raiseFault c s) := fun c' set => by
  simp [raiseFault, FaultBits.get_set, set]

theorem CommandEffect.faultsKept {s t : State} (h : CommandEffect s t) : FaultsKept s t := by
  cases h with
  | faulted c => exact raiseFault_faultsKept c s
  | started | begun | ended => exact .of_eq rfl

theorem AccessEffect.faultsKept {s t : State} (h : AccessEffect s t) : FaultsKept s t := by
  cases h with
  | reads => exact .of_eq rfl
  | badRead | badWrite => exact raiseFault_faultsKept .busError s
  | commands _ effect => exact effect.faultsKept

theorem coldFail_faultsKept (k : Nat) (s : State) : FaultsKept s (coldFail k s) :=
  raiseFault_faultsKept .clkCfgFail s

theorem FsmEffect.faultsKept {d : Draws} {s t : State} (h : FsmEffect d s t) : FaultsKept s t := by
  cases h
  case esCsBegin | xsCsBegin => exact (csBegin_effect s).faultsKept
  case esCsEnd | xsCsEnd => exact (csEnd_effect _ s).faultsKept
  case ccVosFail | ccOscFail | ccPllFail | ccSysclkFail | ccRtcclkFail => exact coldFail_faultsKept _ s
  all_goals exact .of_eq rfl

theorem EnvEffect.fault {s t : State} (h : EnvEffect s t) : t.fault = s.fault := by
  cases h <;> rfl

/-- The accesses of one step together. -/
theorem runAccesses_grows {body : List Access} {s t : State} (run : runAccesses body s = .next t) :
    FaultsKept s t ∧ LogsHarmless s t := by
  obtain ⟨u, hu, kept⟩ := runAccesses_next (fun u => FaultsKept s u ∧ LogsHarmless s u)
    (fun _ _ effect ⟨faults, logs⟩ => ⟨fun c set => effect.faultsKept c (faults c set), logs.trans effect.logs⟩)
    body s ⟨.of_eq rfl, .of_eq rfl⟩
  cases hu.symm.trans run
  exact kept

theorem AgentEffect.grows {u t : State} (h : AgentEffect u t) : FaultsKept u t ∧ ∃ l, t.evt = u.evt ++ l := by
  cases h with
  | fsm _ _ effect => exact ⟨effect.faultsKept, effect.evt_grows⟩
  | env _ effect => exact ⟨.of_eq effect.fault, [], by rw [effect.evt, List.append_nil]⟩
  | access _ effect =>
    obtain ⟨l, logged, _⟩ := effect.logs
    exact ⟨effect.faultsKept, l, logged⟩
  | handler src _ _ _ run =>
    obtain ⟨faults, logs⟩ := runAccesses_grows run
    obtain ⟨l, logged, _⟩ := (handlerEntry_logs src u).trans logs
    exact ⟨fun c set => faults c (by rwa [handlerEntry_fault]), l, logged⟩
  | unchanged => exact ⟨.of_eq rfl, [], (List.append_nil _).symm⟩

/-- Settles O32: no agent's step clears a fault bit, shortens EVT or writes the parameters. -/
theorem faultsAndHistoryPersist : Obligations.FaultsAndHistoryPersist := by
  refine fun s t h => ⟨step_params h, fun noReset => ?_⟩
  obtain ⟨_, _, agent⟩ := step_agent h noReset
  exact agent.grows

/-- A command word faults and changes nothing else, or logs one event that is no fault and leaves FAULT alone. -/
theorem CommandEffect.one_fault {s t : State} (h : CommandEffect s t) :
    (∃ c, t = { s with fault := s.fault.set c, evt := s.evt ++ [.fault c] }) ∨
    (t.fault = s.fault ∧ ∃ e, t.evt = s.evt ++ [e] ∧ ∀ c, e ≠ .fault c) := by
  cases h with
  | faulted c => exact .inl ⟨c, rfl⟩
  | started | begun | ended => exact .inr ⟨rfl, _, rfl, nofun⟩

/-- Settles O8: a write is a BUS_ERROR or presents its word. -/
theorem oneFaultPerWrite : Obligations.OneFaultPerWrite := by
  intro s t addr size w h
  by_cases admitted : admittedReg s.params addr size = some .cmd
  · rw [memWrite, admitted] at h
    obtain ⟨u, presented, effect⟩ := presentCommand_next w s
    cases presented.symm.trans h
    exact effect.one_fault
  · rw [memWrite_of_ne_cmd w admitted] at h
    cases h
    exact .inl ⟨.busError, rfl⟩

/-! ### The order of the PLL's events (R159, R165) -/

theorem orderView_append (l m : List LogEvent) : orderView (l ++ m) = m.foldl orderNext (orderView l) :=
  List.foldl_append

theorem orderNext_ok {e : LogEvent} (harmless : enablesPll e = false) (o : OrderView) : (orderNext o e).ok = o.ok := by
  unfold orderNext
  split <;> first | rfl | cases harmless

theorem foldl_orderNext_ok {l : List LogEvent} (harmless : ∀ e ∈ l, enablesPll e = false) (o : OrderView) :
    (l.foldl orderNext o).ok = o.ok := by
  induction l generalizing o with
  | nil => rfl
  | cons e rest ih =>
    obtain ⟨head, tail⟩ := List.forall_mem_cons.1 harmless
    exact (ih tail _).trans (orderNext_ok head o)

theorem LogsHarmless.ok {s t : State} (h : LogsHarmless s t) : (orderView t.evt).ok = (orderView s.evt).ok := by
  obtain ⟨l, logged, harmless⟩ := h
  rw [logged, orderView_append]
  exact foldl_orderNext_ok harmless _

/-- The phases that enable the PLL or switch to it. -/
def usesPll : Phase → Bool
  | .ccPll | .crPll | .ccSysclk | .crSw => true
  | _ => false

theorem OrderInv.of_free {s : State} (ordered : (orderView s.evt).ok = true)
    (free : usesPll s.seqPhase = false ∨ s.issued = true) : OrderInv s := by
  refine ⟨ordered, fun at_phase fresh => ?_, fun at_phase fresh => ?_⟩ <;>
    rcases at_phase with at_phase | at_phase <;> simp [at_phase, fresh, usesPll] at free

theorem OrderInv.at_pll {s : State} (ordered : (orderView s.evt).ok = true)
    (at_phase : s.seqPhase = .ccPll ∨ s.seqPhase = .crPll) (seen : (orderView s.evt).hseSeen = true) : OrderInv s := by
  refine ⟨ordered, fun _ _ => seen, ?_⟩
  rcases at_phase with at_phase | at_phase <;> simp [at_phase]

theorem OrderInv.at_switch {s : State} (ordered : (orderView s.evt).ok = true)
    (at_phase : s.seqPhase = .ccSysclk ∨ s.seqPhase = .crSw) (seen : (orderView s.evt).lockSeen = true) :
    OrderInv s := by
  refine ⟨ordered, ?_, fun _ _ => seen⟩
  rcases at_phase with at_phase | at_phase <;> simp [at_phase]

/-- The PLL is enabled, and switched to, in a phase that has seen what the write depends on. -/
theorem FsmEffect.ordered {d : Draws} {s t : State} (h : FsmEffect d s t) (inv : OrderInv s) :
    (orderView t.evt).ok = true := by
  rcases h.logs with harmless | ⟨at_phase, fresh, rfl⟩ | ⟨at_phase, fresh, rfl⟩ | ⟨at_phase, fresh, rfl⟩
  · exact harmless.ok.trans inv.ordered
  · simp [pllIssue, orderView_append, orderNext, inv.ordered, inv.before_pll at_phase fresh]
  · simp [Machine.ccSysclkIssue, orderView_append, orderNext, inv.ordered, inv.before_switch (.inl at_phase) fresh]
  · simp [Machine.crSwIssue, orderView_append, orderNext, inv.ordered, inv.before_switch (.inr at_phase) fresh]

/-- The completion that enters such a phase logs the observation. -/
theorem FsmEffect.orderInv {d : Draws} {s t : State} (h : FsmEffect d s t) (inv : OrderInv s) : OrderInv t := by
  have ordered := h.ordered inv
  cases h
  case ccOscOk => exact .at_pll ordered (.inl rfl) (by simp [coldOk, orderView_append, orderNext])
  case crHseDone => exact .at_pll ordered (.inr rfl) (by simp [orderView_append, orderNext])
  case ccPllOk => exact .at_switch ordered (.inl rfl) (by simp [coldOk, orderView_append, orderNext])
  case crPllDone => exact .at_switch ordered (.inr rfl) (by simp [orderView_append, orderNext])
  case ccVosIssue | ccOscIssue | ccPllIssue | ccSysclkIssue | ccRtcclkIssue | crVosIssue | crHseIssue | crPllIssue
      | crSwIssue | esHaltIssue | slHaltIssue =>
    exact .of_free ordered (.inr rfl)
  all_goals exact .of_free ordered (.inl rfl)

theorem OrderInv.congr {s t : State} (inv : OrderInv s) (control : SameControl s t)
    (view : orderView t.evt = orderView s.evt) : OrderInv t := by
  constructor <;> simp only [control.seqPhase, control.issued, view]
  · exact inv.ordered
  · exact inv.before_pll
  · exact inv.before_switch

/-- Faults and the Begin and End events say nothing about the clock. -/
theorem CommandEffect.orderInv {s t : State} (h : CommandEffect s t) (inv : OrderInv s) : OrderInv t := by
  cases h with
  | faulted => exact inv.congr ⟨rfl, rfl, rfl⟩ (by simp [orderView_append, orderNext])
  | begun | ended => exact inv.congr ⟨rfl, rfl, rfl⟩ (by simp [orderView_append, orderNext])
  | started op idle ready =>
    refine .of_free ((CommandEffect.started op idle ready).logs.ok.trans inv.ordered) (.inl ?_)
    cases op <;> rfl

theorem AccessEffect.orderInv {s t : State} (h : AccessEffect s t) (inv : OrderInv s) : OrderInv t := by
  cases h with
  | reads => exact inv.congr ⟨rfl, rfl, rfl⟩ rfl
  | badRead | badWrite => exact inv.congr ⟨rfl, rfl, rfl⟩ (by simp [orderView_append, orderNext])
  | commands _ effect => exact effect.orderInv inv

theorem handlerEntry_orderInv {src : Source} {s : State} (inv : OrderInv s) : OrderInv (handlerEntry src s) :=
  inv.congr (handlerEntry_control src s) (by simp [handlerEntry_evt, orderView_append, orderNext])

theorem EnvEffect.orderInv {s t : State} (h : EnvEffect s t) (inv : OrderInv s) : OrderInv t :=
  inv.congr h.control (congrArg orderView h.evt)

/-- Settles O29: each agent's step keeps the invariant. -/
theorem orderingInvariantKept : Obligations.OrderingInvariantKept := fun s t inv h =>
  step_keeps OrderInv (fun _ _ inv => inv.congr ⟨rfl, rfl, rfl⟩ rfl) (fun _ _ inv => inv.congr ⟨rfl, rfl, rfl⟩ rfl)
    (fun _ _ => AccessEffect.orderInv) (fun _ _ _ run => (fsmStep_effect run).orderInv)
    (fun _ _ _ => handlerEntry_orderInv) (fun e u => (envStep_effect e u).orderInv)
    (fun _ _ _ => .of_free rfl (.inl rfl)) s t h inv

end Sys2Proof.Machine
end

section
/-! SUPPORT. Proofs about the register window (20_memory.md, R24 to R41): which accesses are admitted, what a read returns,
and every field of every register word at its bits. -/

namespace Sys2Proof.Machine

/-! ### Admission (R61) -/

/-- R22 lists a register at each aligned offset of the window. -/
theorem regAt_isSome_iff (off : Nat) : (regAt off).isSome = true ↔ off % 4 = 0 ∧ off ≤ 0x24 := by
  constructor
  · intro h
    obtain ⟨r, reached⟩ := Option.isSome_iff_exists.1 h
    exact regAt_eq_some_aligned reached
  · rintro ⟨aligned, le⟩
    obtain ⟨k, rfl⟩ := Nat.dvd_of_mod_eq_zero aligned
    have listed : ∀ k < 10, (regAt (4 * k)).isSome = true := by decide
    exact listed k (by omega)

theorem admittedReg_isSome_iff (p : Params) (addr : Word) (size : Nat) :
    (admittedReg p addr size).isSome = true ↔ size = 4 ∧ p.blockBase.toNat ≤ addr.toNat ∧
      (addr.toNat - p.blockBase.toNat) % 4 = 0 ∧ addr.toNat - p.blockBase.toNat ≤ 0x24 := by
  unfold admittedReg offsetOf
  by_cases above : p.blockBase.toNat ≤ addr.toNat
  · simp only [above, if_true, true_and]
    split
    · rename_i tests
      exact iff_of_true ((regAt_isSome_iff _).2 tests.2) tests
    · rename_i tests
      exact iff_of_false nofun tests
  · simp [above]

theorem memRead_of_admitted {addr : Word} {size : Nat} {s : State} {r : Reg}
    (reached : admittedReg s.params addr size = some r) :
    memRead addr size s =
      { s with readData := some (regWord s r), tick := if readDraws s r then s.tick + 1 else s.tick } := by
  rw [memRead, reached]

theorem memRead_of_refused {addr : Word} {size : Nat} {s : State} (refused : admittedReg s.params addr size = none) :
    memRead addr size s = { raiseFault .busError s with readData := some 0#32 } := by
  rw [memRead, refused]

/-- Settles O12: R61's tests are those of `admittedReg`. -/
theorem accessAdmission : Obligations.AccessAdmission := by
  intro s addr size admitted
  have tests : (admittedReg s.params addr size).isSome = true ↔ admitted := admittedReg_isSome_iff s.params addr size
  refine ⟨fun refused => ?_, fun ok => ?_⟩
  · have none : admittedReg s.params addr size = none := by simpa [← tests] using refused
    exact ⟨memRead_of_refused none, fun w => memWrite_of_ne_cmd w (by simp [none])⟩
  · obtain ⟨r, reached⟩ := Option.isSome_iff_exists.1 (tests.2 ok)
    rw [memRead_of_admitted reached]
    exact ⟨rfl, rfl⟩

/-! ### Reads (R62) -/

/-- A fact about every pair of a list, one pair at a time. -/
theorem forall_of_pairs {α β : Type} {l : List (α × β)} {P : α → β → Prop} (h : ∀ x ∈ l, P x.1 x.2) (a : α) (b : β)
    (member : (a, b) ∈ l) : P a b :=
  h (a, b) member

theorem memRead_of_held {addr : Word} {s : State} {r : Reg} (reached : admittedReg s.params addr 4 = some r)
    (held : readDraws s r = false) : memRead addr 4 s = { s with readData := some (regWord s r) } := by
  rw [memRead_of_admitted reached, held]
  rfl

/-- Settles O13: an offset of the window reaches its own register; only WAKE_LATENCY without a value draws. -/
theorem readReturnsTheRegister : Obligations.ReadReturnsTheRegister := by
  refine ⟨fun s => ⟨rfl, rfl, rfl, rfl, rfl, rfl, rfl, rfl⟩, fun s off r member fits => ?_⟩
  have listed : regAt off = some r := by
    refine forall_of_pairs (P := fun off r => regAt off = some r) ?_ off r member
    decide
  have reached := (admittedReg_blockBase_add s.params fits).trans listed
  refine ⟨fun held => memRead_of_held reached ?_, ?_, ?_, ?_⟩
  · rcases held with other | some
    · simp [readDraws, other]
    · simp [readDraws, some]
  · rintro rfl none
    rw [memRead_of_admitted reached]
    simp [regWord, wakeLatencyWord, readDraws, none]
  · rintro rfl v some
    simp [regWord, wakeLatencyWord, some]
  · rintro rfl
    rfl

/-! ### Bytes (R64) -/

theorem getLsbD_byteOfWord (w : Word) (k i : Nat) (h : i < 8) : (byteOfWord w k).getLsbD i = w.getLsbD (8 * k + i) := by
  simp [byteOfWord, h]

/-- Settles O17: the byte at offset + i div 8 is byte i div 8 of the register's word. -/
theorem windowIsLittleEndian : Obligations.WindowIsLittleEndian := by
  intro s off i r listed bit fits
  obtain ⟨aligned, _⟩ := regAt_eq_some_aligned listed
  have register : (off + i / 8) / 4 * 4 = off := by omega
  have byte : (off + i / 8) % 4 = i / 8 := by omega
  refine ⟨byteOfWord (regWord s r) (i / 8), ?_, ?_⟩
  · simp only [windowByte, offsetOf_blockBase_add s.params (show s.params.blockBase.toNat + (off + i / 8) < 2 ^ 32 by omega),
      register, listed, byte]
  · rw [getLsbD_byteOfWord _ _ _ (Nat.mod_lt _ (by decide)), Nat.div_add_mod]

/-! ### Fields (R24 to R41) -/

/-- Settles O15: a field placed at its bits reads back, and the others contribute nothing there. -/
theorem statusFields : Obligations.StatusFields := by
  refine ⟨fun s => ?_, forall_of_pairs (by decide), forall_of_pairs (by decide), forall_of_pairs (by decide),
    forall_of_pairs (by decide), forall_of_pairs (by decide), forall_of_pairs (by decide)⟩
  have cmd : (statusWord s).extractLsb' 24 8 = curCmdCode s := by
    simp [statusWord, extract_or, extract_bitAt_other, extract_fieldAt_same, extract_fieldAt_other]
  refine ⟨?_, ?_, ?_, ?_, ?_, ?_, ?_, ?_, ?_, ?_, ?_, ?_, ?_, ?_, ?_, fun none => ?_, fun op running => ?_⟩
  case refine_16 => rw [cmd, curCmdCode, none]
  case refine_17 => rw [cmd, curCmdCode, Option.mem_def.1 running]
  all_goals
    simp [statusWord, busy, isFatal, extract_or, extract_bitAt_same, extract_bitAt_other, extract_fieldAt_same,
      extract_fieldAt_other]

section
variable (s : State)

theorem faultWord_getLsbD :
    ∀ x ∈ [(FaultCode.illegalCmd, 0), (.cmdBusy, 1), (.csNest, 2), (.csUnpaired, 3), (.csTokenMismatch, 4),
      (.clkCfgFail, 5), (.busError, 6), (.stateError, 7)], (faultWord s.fault).getLsbD x.2 = s.fault.get x.1 := by
  simp [faultWord, FaultBits.get, getElem_bitAt]

theorem clkctrlWord_getLsbD :
    ∀ x ∈ [(s.clk.vosFull, 0), (s.clk.vosRdy, 1), (s.clk.hseOn, 2), (s.clk.hseRdy, 3), (s.clk.lseOn, 4),
      (s.clk.lseRdy, 5), (s.clk.pllOn, 6), (s.clk.pllLock, 7), (s.clk.pllSrcHse, 8), (s.clk.busdivSet, 13),
      (s.clk.rtcselLse, 14), (s.clk.systickOn, 15)], (clkctrlWord s.clk).getLsbD x.2 = x.1 := by
  simp [clkctrlWord, getElem_bitAt, getElem_fieldAt]

theorem pwrctrlWord_getLsbD :
    ∀ x ∈ [(s.pwr.borEn, 0), (s.pwr.ulp, 1), (s.pwr.fwu, 2), (s.pwr.regLp, 3), (s.pwr.fullShutdownEn, 4),
      (decide (s.pwr.pwrSrc = .batteryPower), 5)], (pwrctrlWord s.pwr).getLsbD x.2 = x.1 := by
  simp [pwrctrlWord, getElem_bitAt, isBattery]

theorem periphWord_getLsbD :
    ∀ x ∈ [(s.periph.consoleInit, 0), (s.periph.rtcInit, 1), (s.periph.ledsOff, 2), (s.periph.unusedPinsLp, 3),
      (s.periph.adcInit, 4), (s.periph.radioBusInit, 5), (s.periph.radioDbgInit, 6), (s.periph.wdgInit, 7),
      (s.periph.stopPinsLp, 8)], (periphWord s.periph).getLsbD x.2 = x.1 := by
  simp [periphWord, getElem_bitAt]

theorem irqWord_getLsbD :
    ∀ x ∈ [(Source.extiWake, 0), (.rtcAlarm, 1), (.calTimer, 2), (.sysTick, 3), (.periph, 4)],
      (irqWord s).getLsbD x.2 = s.pending.get x.1 ∧ (irqWord s).getLsbD (8 + x.2) = enabled s x.1 := by
  simp [irqWord, getElem_bitAt, Pending.get]

end

theorem ClockSource.code_eq (c : ClockSource) : c.code = if c = .pll then 3#2 else 0#2 := by
  cases c <;> rfl

/-- Settles O16: each word has its fields at their bits, and nothing at the reserved ones. -/
theorem registerFields : Obligations.RegisterFields := by
  intro s
  refine ⟨forall_of_pairs (faultWord_getLsbD s), ?_, forall_of_pairs (clkctrlWord_getLsbD s), ?_, ?_, ?_,
    forall_of_pairs (pwrctrlWord_getLsbD s), ?_, forall_of_pairs (periphWord_getLsbD s), ?_,
    forall_of_pairs (irqWord_getLsbD s), rfl, rfl, rfl, rfl, rfl, rfl, rfl, rfl, rfl, rfl, ?_, ?_, ?_, ?_, ?_, ?_, ?_, ?_⟩
  · simp [faultWord, extract_or, extract_bitAt_other]
  · simp [clkctrlWord, extract_or, extract_bitAt_other, extract_fieldAt_same, extract_fieldAt_other, ClockSource.code_eq]
  · simp [clkctrlWord, extract_or, extract_bitAt_other, extract_fieldAt_same, extract_fieldAt_other, ClockSource.code_eq]
  · simp [clkctrlWord, extract_or, extract_bitAt_other, extract_fieldAt_other]
  · simp [pwrctrlWord, extract_or, extract_bitAt_other]
  · simp [periphWord, extract_or, extract_bitAt_other]
  · simp [irqWord, extract_or, extract_bitAt_other]
  · simp [irqWord, extract_or, extract_bitAt_other]
  · simp [calWord, getElem_bitAt]
  · simp [calWord, getElem_bitAt]
  · simp [calWord, extract_or, extract_bitAt_other]
  · simp [instrWord, extract_or, extract_fieldAt_same, extract_fieldAt_other]
  · simp [instrWord, extract_or, extract_fieldAt_same, extract_fieldAt_other]
  · simp [instrWord, extract_or, extract_fieldAt_same, extract_fieldAt_other]

end Sys2Proof.Machine
end

section
/-! SUPPORT. Proofs about a step as the step of its agent (R8, R60, R68), the state right after reset (R271), and what
software leaves alone (R22, R72). -/

namespace Sys2Proof.Machine

/-! ### The agents' steps -/

theorem decodeWord_of_decodeTableWord {nbits w : Nat} {i : Instr} (h : decodeTableWord nbits w = some i) :
    decodeWord (BitVec.ofNat 32 (w % 2 ^ nbits)) = .ok i := by
  have bytes := decode_bytesOfWord (BitVec.ofNat 32 (w % 2 ^ nbits)) []
  rw [List.append_nil] at bytes
  rw [decodeTableWord, bytes] at h
  revert h
  cases decodeWord (BitVec.ofNat 32 (w % 2 ^ nbits)) with
  | ok j => exact fun h => congrArg Except.ok (Option.some.inj h)
  | error e => exact nofun

theorem step_placeCommand (w : Word) (s : State) : step (placeCommand w s) = presentCommand w s :=
  (step_of_agenda rfl).trans (runAction_cmdWrite s w)

theorem step_of_cmdWrite {s : State} {w : Word} {rest : List Action}
    (head : s.agenda = cmdWrite s.params w :: rest) : step s = presentCommand w { s with agenda := rest } :=
  (step_of_agenda head).trans (runAction_cmdWrite { s with agenda := rest } w)

/-- Settles O5: the head of the agenda is the action taken, and a written word is presented. -/
theorem stepRunsTheDecodedCommand : Obligations.StepRunsTheDecodedCommand := by
  refine ⟨fun s rest w i head decoded _ => ?_, fun s nbits w i table => ?_, fun s rest addr size head => step_of_agenda head,
    fun s rest addr size w head => step_of_agenda head, fun s rest e head => step_of_agenda head,
    fun s rest d head => step_of_agenda head, fun s empty => ?_⟩
  · exact (step_of_cmdWrite head).trans (presentCommand_of_decodeWord _ decoded)
  · exact (step_placeCommand _ s).trans (presentCommand_of_decodeWord s (decodeWord_of_decodeTableWord table))
  · simp only [step, nextStep, empty, fsmTurn]

theorem step_next (s : State) : ∃ t, step s = .next t := by
  unfold step nextStep
  split
  · exact runAction_next _ _
  · exact ⟨_, rfl⟩

/-- Settles O6: every arm answers, and so does every agent. -/
theorem everyStepAnswers : Obligations.EveryStepAnswers := by
  refine ⟨fun i s => ?_, step_next⟩
  obtain ⟨t, answers, _⟩ := exec_next i s
  exact ⟨t, answers⟩

/-! ### The state right after reset -/

/-- The fixed draws of the test vectors. -/
def fixedDraws : ResetDraws := ⟨false, false, false, false, false, false, false, true, true, false, .batteryPower⟩

theorem reset_eq_resetWith : State.reset = resetWith fixedDraws State.reset := rfl

/-- Settles O20: one state, evaluated. -/
theorem resetStateReadsAsS0 : Obligations.ResetStateReadsAsS0 :=
  ⟨reset_eq_resetWith, by decide, by decide, by decide, by decide, by decide, by decide, by decide, by decide⟩

/-- Settles O21: the invariants hold after any reset, and `State.reset` is one. -/
theorem invariantsHoldAtReset : Obligations.InvariantsHoldAtReset := by
  unfold Obligations.InvariantsHoldAtReset
  rw [reset_eq_resetWith]
  exact ⟨resetWith_sequencerInv _ _, resetWith_clockInv _ _, resetWith_coldInv _ _, resetWith_calInv _ _, nofun,
    .of_nothing (resetWith_sequencerInv _ _) rfl, ⟨by decide, .noValue _, .noValue _, nofun⟩, .of_free rfl (.inl rfl)⟩

/-! ### Software's frame -/

/-- Whatever its body, a handler step leaves these fields as its entry leaves them, or nothing happens. -/
theorem handlerStep_frame {src : Source} {body : List Access} {s t : State} (h : handlerStep src body s = .next t) :
    t = s ∨ SoftwareFrame (handlerEntry src s) t := by
  rcases handlerStep_cases src body s with ⟨_, _, e⟩ | ⟨_, e⟩
  · exact .inr (runAccesses_frame (e.symm.trans h))
  · exact .inl (Host.Outcome.next.inj (h.symm.trans e))

/-- Settles O34: no access writes the block's clock, power, peripheral or lifecycle fields, and a handler's entry writes
PENDING, ENABLE and CAL alone. -/
theorem softwareWritesOnlyThroughCommands : Obligations.SoftwareWritesOnlyThroughCommands := by
  intro s t h rest agent
  rcases agent with ⟨a, head⟩ | ⟨src, body, head⟩
  · rw [step_of_agenda head, runAction] at h
    obtain ⟨u, run, effect⟩ := runAccess_next a { s with agenda := rest }
    cases run.symm.trans h
    obtain ⟨clk, pwr, periph, pending, enable, cal, counters, life, calState, mode, cold, latency, wuf, tx, rx, _, _⟩ :=
      access_frame effect
    exact ⟨clk, pwr, periph, counters, life, calState, mode, cold, latency, wuf, tx, rx, fun _ _ => ⟨pending, enable, cal⟩⟩
  · rw [step_of_agenda head, runAction] at h
    have notMain (a : Access) : s.agenda ≠ .main a :: rest := fun main => nomatch head.symm.trans main
    rcases handlerStep_frame h with rfl | frame
    · exact ⟨rfl, rfl, rfl, rfl, rfl, rfl, rfl, rfl, rfl, rfl, rfl, rfl, fun a main => absurd main (notMain a)⟩
    · refine ⟨frame.clk.trans (handlerEntry_clk _ _), frame.pwr.trans (handlerEntry_pwr _ _),
        frame.periph.trans (handlerEntry_periph _ _), frame.counters.trans (handlerEntry_counters _ _),
        frame.lifecycle.trans (handlerEntry_lifecycle _ _), frame.calState.trans (handlerEntry_calState _ _),
        frame.powerMode.trans (handlerEntry_powerMode _ _), frame.coldPath.trans (handlerEntry_coldPath _ _),
        frame.wakeLatency.trans (handlerEntry_wakeLatency _ _), frame.wuf.trans (handlerEntry_wuf _ _),
        frame.txbuf.trans (handlerEntry_txbuf _ _), frame.rxbuf.trans (handlerEntry_rxbuf _ _),
        fun a main => absurd main (notMain a)⟩

end Sys2Proof.Machine
end

section
/-! SUPPORT. Proofs about the environment (R43, R44, R175, R235): the clock-tree inputs change only under their conditions,
and what each of its changes does. -/

namespace Sys2Proof.Machine

/-! ### The clock-tree inputs (R175) -/

/-- What each change by the environment can do to CLKCTRL. -/
inductive ReadinessEffect (c : ClkCtrl) : EnvAction → ClkCtrl → Prop where
  | unchanged (e : EnvAction) : ReadinessEffect c e c
  | vosRdy (on : c.vosFull = true) : ReadinessEffect c .raiseVosRdy { c with vosRdy := true }
  | hseRdy (on : c.hseOn = true) : ReadinessEffect c .raiseHseRdy { c with hseRdy := true }
  | lseRdy (on : c.lseOn = true) : ReadinessEffect c .raiseLseRdy { c with lseRdy := true }
  | pllLock (on : c.pllOn = true) (source : c.pllSrcHse = true) (ready : c.hseRdy = true) :
      ReadinessEffect c .raisePllLock { c with pllLock := true }
  | sws (may : c.sw = .internal ∨ c.pllLock = true) : ReadinessEffect c .updateSws { c with sws := c.sw }

theorem envStep_readiness (e : EnvAction) (s : State) : ReadinessEffect s.clk e (envStep e s).clk := by
  cases e with
  | raiseVosRdy =>
    simp only [envStep]
    split
    · rename_i may; simp only [vosMayRise, Bool.and_eq_true] at may; exact .vosRdy may.2
    · exact .unchanged _
  | raiseHseRdy =>
    simp only [envStep]
    split
    · rename_i may; simp only [hseMayRise, Bool.and_eq_true] at may; exact .hseRdy may.2
    · exact .unchanged _
  | raiseLseRdy =>
    simp only [envStep]
    split
    · rename_i may; simp only [lseMayRise, Bool.and_eq_true] at may; exact .lseRdy may.2
    · exact .unchanged _
  | raisePllLock =>
    simp only [envStep]
    split
    · rename_i may; simp only [lockMayRise, Bool.and_eq_true] at may; exact .pllLock may.1.1.2 may.1.2 may.2
    · exact .unchanged _
  | updateSws =>
    simp only [envStep]
    split
    · rename_i may; exact .sws (by simpa [swsMayFollow] using may)
    · exact .unchanged _
  | setPending src =>
    simp only [envStep]
    split <;> exact .unchanged _
  | setEnable | setPwrSrc => exact .unchanged _
  | console r a => cases r <;> exact .unchanged _

/-- The clock-tree inputs are the same. -/
structure SameReadiness (c c' : ClkCtrl) : Prop where
  vosRdy : c'.vosRdy = c.vosRdy
  hseRdy : c'.hseRdy = c.hseRdy
  lseRdy : c'.lseRdy = c.lseRdy
  pllLock : c'.pllLock = c.pllLock
  sws : c'.sws = c.sws

theorem SameReadiness.of_eq {c c' : ClkCtrl} (same : c' = c) : SameReadiness c c' := by
  subst same
  constructor <;> rfl

/-- Of the FSM's steps only the Stop wake moves an input (R139). -/
theorem FsmEffect.readiness {d : Draws} {s t : State} (h : FsmEffect d s t) (stays : ¬ leavesStop s t) :
    SameReadiness s.clk t.clk := by
  cases h
  case stopWake at_phase _ _ => exact absurd ⟨at_phase, rfl⟩ stays
  case esCsBegin | xsCsBegin => exact .of_eq (csBegin_clk s)
  case esCsEnd | xsCsEnd => exact .of_eq (csEnd_clk _ s)
  all_goals exact ⟨rfl, rfl, rfl, rfl, rfl⟩

theorem step_readiness {s t : State} (h : step s = .next t) (noReset : resets s = false) (stays : ¬ leavesStop s t) :
    SameReadiness s.clk t.clk ∨ ∃ e rest, s.agenda = .env e :: rest ∧ ReadinessEffect s.clk e t.clk := by
  cases step_effect h with
  | access _ _ _ _ _ effect => exact .inl (.of_eq (access_frame effect).clk)
  | fsm _ _ _ turn run =>
    rcases turn with ⟨_, _, rfl⟩ | ⟨_, _, rfl⟩
    · exact .inl ((fsmStep_effect run).readiness stays)
    · exact .inl ((fsmStep_effect run).readiness stays)
  | waits _ _ turn => rcases turn with ⟨_, _, rfl⟩ | ⟨_, _, rfl⟩ <;> exact .inl (.of_eq rfl)
  | handler src _ _ _ _ _ _ run => exact .inl (.of_eq ((runAccesses_frame run).clk.trans (handlerEntry_clk src _)))
  | noHandler => exact .inl (.of_eq rfl)
  | env e rest head => exact .inr ⟨e, rest, head, envStep_readiness e { s with agenda := rest }⟩
  | reset _ _ head => simp [resets, head] at noReset

section
variable {c c' : ClkCtrl} {e : EnvAction} (h : ReadinessEffect c e c')
include h

theorem ReadinessEffect.of_vosRdy (changed : c.vosRdy ≠ c'.vosRdy) :
    e = .raiseVosRdy ∧ c'.vosRdy = true ∧ c.vosFull = true := by
  cases h with
  | vosRdy on => exact ⟨rfl, rfl, on⟩
  | _ => exact absurd rfl changed

theorem ReadinessEffect.of_hseRdy (changed : c.hseRdy ≠ c'.hseRdy) :
    e = .raiseHseRdy ∧ c'.hseRdy = true ∧ c.hseOn = true := by
  cases h with
  | hseRdy on => exact ⟨rfl, rfl, on⟩
  | _ => exact absurd rfl changed

theorem ReadinessEffect.of_lseRdy (changed : c.lseRdy ≠ c'.lseRdy) :
    e = .raiseLseRdy ∧ c'.lseRdy = true ∧ c.lseOn = true := by
  cases h with
  | lseRdy on => exact ⟨rfl, rfl, on⟩
  | _ => exact absurd rfl changed

theorem ReadinessEffect.of_pllLock (changed : c.pllLock ≠ c'.pllLock) :
    e = .raisePllLock ∧ c'.pllLock = true ∧ c.pllOn = true ∧ c.pllSrcHse = true ∧ c.hseRdy = true := by
  cases h with
  | pllLock on source ready => exact ⟨rfl, rfl, on, source, ready⟩
  | _ => exact absurd rfl changed

theorem ReadinessEffect.of_sws (changed : c.sws ≠ c'.sws) :
    e = .updateSws ∧ c'.sws = c.sw ∧ (c.sw = .internal ∨ c.pllLock = true) := by
  cases h with
  | sws may => exact ⟨rfl, rfl, may⟩
  | _ => exact absurd rfl changed

end

/-- The switch follows an SW of INTERNAL at any time, an SW of PLL once locked (R175). -/
theorem swsMayFollow_iff (c : ClkCtrl) :
    swsMayFollow c = true ↔ c.sw = .internal ∨ (c.sw = .pll ∧ c.pllLock = true) := by
  cases sw : c.sw <;> simp [swsMayFollow, sw]

/-- Settles O37: a changed input was moved by its own change; a permitted change is made. -/
theorem readinessChanges : Obligations.ReadinessChanges := by
  refine ⟨fun s t h noReset stays => ?_, fun s => ⟨?_, ?_, ?_, ?_, ?_⟩⟩
  · rcases step_readiness h noReset stays with same | ⟨e, rest, head, effect⟩
    · exact ⟨fun changed => absurd same.vosRdy.symm changed, fun changed => absurd same.hseRdy.symm changed,
        fun changed => absurd same.lseRdy.symm changed, fun changed => absurd same.pllLock.symm changed,
        fun changed => absurd same.sws.symm changed⟩
    · refine ⟨fun changed => ?_, fun changed => ?_, fun changed => ?_, fun changed => ?_, fun changed => ?_⟩
      · obtain ⟨rfl, up, on⟩ := effect.of_vosRdy changed
        exact ⟨up, on, rest, head⟩
      · obtain ⟨rfl, up, on⟩ := effect.of_hseRdy changed
        exact ⟨up, on, rest, head⟩
      · obtain ⟨rfl, up, on⟩ := effect.of_lseRdy changed
        exact ⟨up, on, rest, head⟩
      · obtain ⟨rfl, up, on, source, ready⟩ := effect.of_pllLock changed
        exact ⟨up, on, source, ready, rest, head⟩
      · obtain ⟨rfl, follows, may⟩ := effect.of_sws changed
        exact ⟨follows, (swsMayFollow_iff s.clk).1 (by simpa [swsMayFollow] using may), rest, head⟩
  · intro low on
    simp [envStep, vosMayRise, low, on]
  · intro low on
    simp [envStep, hseMayRise, low, on]
  · intro low on
    simp [envStep, lseMayRise, low, on]
  · intro low on source ready
    simp [envStep, lockMayRise, low, on, source, ready]
  · intro may
    simp [envStep, (swsMayFollow_iff s.clk).2 may]

/-! ### Interrupt sources, enables, the power source and the console (R43, R235) -/

section
variable {p : Params} {r : Ring}

theorem Ring.act_of_no_value (a : RingAction) (none : ¬ (r.head.isSome = true ∧ r.tail.isSome = true)) :
    r.act p a = r := by
  simp only [Ring.act, Bool.and_eq_true, if_neg none]

variable (valued : r.head.isSome = true ∧ r.tail.isSome = true)
include valued

theorem Ring.act_setHead (i : Nat) :
    r.act p (.setHead i) = if i < p.consoleCap then { r with head := some i } else r := by
  simp [Ring.act, valued]

theorem Ring.act_setTail (i : Nat) :
    r.act p (.setTail i) = if i < p.consoleCap then { r with tail := some i } else r := by
  simp [Ring.act, valued]

theorem Ring.act_store (i u : Nat) :
    r.act p (.store i u) =
      if i < p.consoleCap ∧ u < 2 ^ p.consoleUnitBits then { r with contents := r.contents.write i u } else r := by
  simp [Ring.act, valued]

end

/-- Settles O38: each change by the environment, where its condition holds and where it fails. -/
theorem interruptSources : Obligations.InterruptSources := by
  intro s
  refine ⟨?_, ?_, fun armed idle => ?_, fun blocked => ?_, fun on => ?_, fun off => ?_, ?_,
    fun b => ⟨rfl, rfl, rfl, rfl, rfl⟩, fun p => rfl, fun a => ⟨rfl, rfl⟩, fun r valued => ⟨?_, ?_, ?_, ?_⟩,
    fun r a none => r.act_of_no_value a none⟩
  · simp [envStep, mayPend, pend, Pending.set, stopSources]
  · simp [envStep, mayPend, pend, Pending.set, stopSources]
  · simp [envStep, mayPend, pend, Pending.set, stopSources, armed, idle]
  · have may : mayPend s .calTimer = false := by simpa [mayPend] using blocked
    simp [envStep, may]
  · simp [envStep, mayPend, pend, Pending.set, stopSources, on]
  · simp [envStep, mayPend, off]
  · simp [envStep, mayPend, pend, Pending.set, stopSources]
  · exact fun i fits => ⟨(Ring.act_setHead valued i).trans (if_pos fits), (Ring.act_setTail valued i).trans (if_pos fits)⟩
  · exact fun i beyond =>
      ⟨(Ring.act_setHead valued i).trans (if_neg beyond), (Ring.act_setTail valued i).trans (if_neg beyond)⟩
  · exact fun i u fits => ⟨r.contents.write i u, (Ring.act_store valued i u).trans (if_pos fits),
      Memory.read_write_same _ i u, fun j other => Memory.read_write_other _ i j u other⟩
  · exact fun i u beyond => (Ring.act_store valued i u).trans (if_neg beyond)

end Sys2Proof.Machine
end

section
/-! SUPPORT. Proofs about interrupt handlers (R236 to R242): when a handler step happens, what its entry does, and that
whatever its body writes it ends with IE, CS_ACTIVE and BUS_ERROR as they were. -/

namespace Sys2Proof.Machine

/-! ### When a handler step happens (R236) -/

theorem handlerEnabled_iff (s : State) (src : Source) :
    handlerEnabled s src = true ↔
      s.ie = true ∧ s.powerMode = .run ∧ s.pending.get src = true ∧ enabled s src = true := by
  simp [handlerEnabled, and_assoc]

theorem handlerStep_of_disabled {src : Source} {s : State} (body : List Access) (disabled : handlerEnabled s src = false) :
    handlerStep src body s = .next s := by
  rw [handlerStep, disabled]
  rfl

theorem handlerStep_of_enabled {src : Source} {body : List Access} {s : State} (enabled : handlerEnabled s src = true)
    (allowed : bodyAllowed s.params src body = true) : handlerStep src body s = runAccesses body (handlerEntry src s) := by
  rw [handlerStep, enabled, allowed]
  rfl

/-! ### Bodies that only read (R62, R237, R238) -/

/-- A read that passes R61's tests. -/
def admittedRead (p : Params) (a : Access) : Prop :=
  ∃ addr, a = .read addr 4 ∧ p.blockBase.toNat ≤ addr.toNat ∧
    (addr.toNat - p.blockBase.toNat) % 4 = 0 ∧ addr.toNat - p.blockBase.toNat ≤ 0x24

theorem commandWrites_of_reads {p : Params} {body : List Access} (reads : ∀ a ∈ body, admittedRead p a) :
    commandWrites body = [] := by
  induction body with
  | nil => rfl
  | cons a rest ih =>
    obtain ⟨⟨_, rfl, _⟩, tail⟩ := List.forall_mem_cons.1 reads
    exact ih tail

theorem accessAllowed_of_reads {p : Params} {body : List Access} (reads : ∀ a ∈ body, admittedRead p a) :
    body.all (accessAllowed p) = true := by
  refine List.all_eq_true.2 fun a member => ?_
  obtain ⟨addr, rfl, tests⟩ := reads a member
  exact (admittedReg_isSome_iff p addr 4).2 ⟨rfl, tests⟩

theorem bodyAllowed_of_no_writes {p : Params} {src : Source} {body : List Access}
    (allowed : body.all (accessAllowed p) = true) (reads : commandWrites body = []) : bodyAllowed p src body = true := by
  cases src <;> simp [bodyAllowed, allowed, reads, commandWritesAllowed]

/-- Settles O39: the entry's effects, and after them only the read port and the draw counter move. -/
theorem handlerSteps : Obligations.HandlerSteps := by
  intro s src body rest head
  rw [step_of_agenda head, runAction]
  refine ⟨fun disabled => handlerStep_of_disabled body ?_, fun ie run pending enable reads => ?_⟩
  · rw [← Bool.not_eq_true, handlerEnabled_iff]
    exact disabled
  · have allowed := accessAllowed_of_reads (p := s.params) reads
    have noWrites := commandWrites_of_reads (p := s.params) reads
    have happens : handlerEnabled { s with agenda := rest } src = true :=
      (handlerEnabled_iff _ src).2 ⟨ie, run, pending, enable⟩
    rw [handlerStep_of_enabled happens (bodyAllowed_of_no_writes allowed noWrites)]
    rw [← handlerEntry_params src { s with agenda := rest }] at allowed
    obtain ⟨rd, n, empty, ran⟩ := runAccesses_reads body (handlerEntry src { s with agenda := rest }) allowed noWrites
    refine ⟨rd, n, ?_, ?_, ?_, ?_⟩
    · simpa using empty
    · rintro addr rfl
      rfl
    · rintro rfl
      exact ran
    · intro other
      rw [ran]
      cases src with
      | calTimer => exact absurd rfl other
      | extiWake | rtcAlarm | sysTick | periph => rfl

/-! ### Bodies that write CMD (R238, R242) -/

theorem decodesTo_iff (w : Word) (i : Instr) : decodesTo w i = true ↔ decodeWord w = .ok i := by
  unfold decodesTo
  cases decodeWord w <;> simp

/-- What presenting a word is: a Begin, an End, or something that leaves the critical section alone. -/
theorem presentCommand_cases (w : Word) (s : State) :
    (decodesTo w .csBegin = true ∧ presentCommand w s = .next (csBegin s)) ∨
    (∃ t, decodeWord w = .ok (.csEnd t) ∧ presentCommand w s = .next (csEnd (tokenBit t) s)) ∨
    (∃ u, presentCommand w s = .next u ∧ u.ie = s.ie ∧ u.csActive = s.csActive ∧ u.csToken = s.csToken) := by
  have sequence (op : SeqOp) : (accept op s).ie = s.ie ∧ (accept op s).csActive = s.csActive ∧
      (accept op s).csToken = s.csToken := by
    rcases accept_cases op s with ⟨_, e⟩ | ⟨_, _, _, e⟩ | ⟨_, _, e⟩ <;> rw [e] <;> exact ⟨rfl, rfl, rfl⟩
  cases decoded : decodeWord w with
  | error e => exact .inr (.inr ⟨raiseFault .illegalCmd s, by rw [presentCommand, decoded], rfl, rfl, rfl⟩)
  | ok i =>
    rw [presentCommand_of_decodeWord s decoded]
    cases i with
    | csBegin => exact .inl ⟨by simp [decodesTo, decoded], rfl⟩
    | csEnd t => exact .inr (.inl ⟨t, rfl, rfl⟩)
    | _ => exact .inr (.inr ⟨_, rfl, sequence _⟩)

/-- No section is open and interrupts are enabled, as a handler finds them (R236). -/
structure Unmasked (s : State) : Prop where
  csActive : s.csActive = false
  ie : s.ie = true

/-- The handler's own section is open: its Begin has saved IE = 1. -/
structure InHandlerSection (s : State) : Prop where
  csActive : s.csActive = true
  csToken : s.csToken = true

theorem csBegin_of_unmasked {s : State} (h : Unmasked s) : InHandlerSection (csBegin s) := by
  rw [csBegin_of_closed h.csActive]
  exact ⟨rfl, h.ie⟩

/-- A word that is no Begin leaves interrupts enabled where no section is open. -/
theorem presentCommand_unmasked {w : Word} {s t : State} (h : Unmasked s) (noBegin : decodesTo w .csBegin = false)
    (run : presentCommand w s = .next t) : Unmasked t := by
  rcases presentCommand_cases w s with ⟨begins, _⟩ | ⟨token, _, e⟩ | ⟨u, e, ie, active, _⟩
  · cases noBegin.symm.trans begins
  · cases e.symm.trans run
    rw [csEnd_of_closed _ h.csActive]
    exact ⟨h.csActive, h.ie⟩
  · cases e.symm.trans run
    exact ⟨active.trans h.csActive, ie.trans h.ie⟩

/-- In the handler's section such a word leaves it open, or is the End that closes it with IE = 1. -/
theorem presentCommand_inHandlerSection {w : Word} {s t : State} (h : InHandlerSection s)
    (noBegin : decodesTo w .csBegin = false) (run : presentCommand w s = .next t) : InHandlerSection t ∨ Unmasked t := by
  rcases presentCommand_cases w s with ⟨begins, _⟩ | ⟨token, _, e⟩ | ⟨u, e, _, active, saved⟩
  · cases noBegin.symm.trans begins
  · cases e.symm.trans run
    rcases csEnd_cases (tokenBit token) s with ⟨closed, _⟩ | ⟨_, _, e⟩ | ⟨_, tok, e⟩
    · cases closed.symm.trans h.csActive
    · exact .inl (e ▸ ⟨h.csActive, h.csToken⟩)
    · exact .inr (e ▸ ⟨rfl, tok.trans h.csToken⟩)
  · cases e.symm.trans run
    exact .inl ⟨active.trans h.csActive, saved.trans h.csToken⟩

/-- CS_END 1 leaves interrupts enabled in either case. -/
theorem presentCommand_csEnd_one {w : Word} {s t : State} (h : InHandlerSection s ∨ Unmasked s)
    (ends : decodesTo w (.csEnd 1#1) = true) (run : presentCommand w s = .next t) : Unmasked t := by
  rw [presentCommand_of_decodeWord s ((decodesTo_iff w _).1 ends)] at run
  rcases h with opened | unmasked
  · rw [exec_csEnd_of_match (t := 1#1) opened.csActive opened.csToken] at run
    cases run
    exact ⟨rfl, rfl⟩
  · rw [exec, execCsEnd, csEnd_of_closed _ unmasked.csActive] at run
    cases run
    exact ⟨unmasked.csActive, unmasked.ie⟩

/-- The words that close the handler's section: no Begin, and CS_END 1 the last. -/
inductive Closing : List Word → Prop where
  | last {e : Word} (ends : decodesTo e (.csEnd 1#1) = true) : Closing [e]
  | cons {w : Word} {ws : List Word} (noBegin : decodesTo w .csBegin = false) (rest : Closing ws) : Closing (w :: ws)

/-- Where a handler's body stands when the words `ws` are still to be written (R238). -/
def BodyInv (ws : List Word) (s : State) : Prop :=
  (Unmasked s ∧ commandWritesAllowed ws = true) ∨ ((InHandlerSection s ∨ Unmasked s) ∧ Closing ws)

theorem BodyInv.finished {s : State} (h : BodyInv [] s) : Unmasked s :=
  h.elim And.left fun ⟨_, closing⟩ => nomatch closing

theorem BodyInv.reads {ws : List Word} {s : State} (h : BodyInv ws s) (w : Word) (n : Nat) :
    BodyInv ws { s with readData := some w, tick := n } :=
  h.imp (fun ⟨unmasked, allowed⟩ => ⟨⟨unmasked.csActive, unmasked.ie⟩, allowed⟩) fun ⟨state, closing⟩ =>
    ⟨state.imp (fun opened => ⟨opened.csActive, opened.csToken⟩) fun unmasked => ⟨unmasked.csActive, unmasked.ie⟩, closing⟩

theorem BodyInv.writes {w : Word} {ws : List Word} {s t : State} (h : BodyInv (w :: ws) s)
    (run : presentCommand w s = .next t) : BodyInv ws t := by
  rcases h with ⟨unmasked, allowed⟩ | ⟨state, closing⟩
  · match ws, allowed with
    | [], allowed => exact .inl ⟨presentCommand_unmasked unmasked (by simpa [commandWritesAllowed] using allowed) run, rfl⟩
    | [e], allowed =>
      simp only [commandWritesAllowed, Bool.and_eq_true] at allowed
      rw [presentCommand_of_decodeWord s ((decodesTo_iff w _).1 allowed.1)] at run
      cases run
      exact .inr ⟨.inl (csBegin_of_unmasked unmasked), .last allowed.2⟩
    | [x, e], allowed =>
      simp only [commandWritesAllowed, Bool.and_eq_true, Bool.not_eq_true'] at allowed
      rw [presentCommand_of_decodeWord s ((decodesTo_iff w _).1 allowed.1.1)] at run
      cases run
      exact .inr ⟨.inl (csBegin_of_unmasked unmasked), .cons allowed.1.2 (.last allowed.2)⟩
  · cases closing with
    | last ends => exact .inl ⟨presentCommand_csEnd_one state ends run, rfl⟩
    | cons noBegin rest =>
      refine .inr ⟨?_, rest⟩
      rcases state with opened | unmasked
      · exact presentCommand_inHandlerSection opened noBegin run
      · exact .inr (presentCommand_unmasked unmasked noBegin run)

theorem CommandEffect.busError {s t : State} (h : CommandEffect s t) : t.fault.busError = s.fault.busError := by
  cases h with
  | faulted c onCommand => cases c <;> first | rfl | exact absurd rfl onCommand
  | started | begun | ended => rfl

/-- A body of allowed accesses writes its words in order, and raises no BUS_ERROR. -/
theorem runAccesses_allowed {body : List Access} {s t : State} (allowed : body.all (accessAllowed s.params) = true)
    (inv : BodyInv (commandWrites body) s) (run : runAccesses body s = .next t) :
    Unmasked t ∧ t.fault.busError = s.fault.busError := by
  induction body generalizing s with
  | nil =>
    cases run
    exact ⟨inv.finished, rfl⟩
  | cons a rest ih =>
    rw [List.all_cons, Bool.and_eq_true] at allowed
    rcases allowedAccess_cases allowed.1 with ⟨addr, size, w, n, rfl, e⟩ | ⟨addr, size, w, rfl, e⟩
    · rw [runAccesses, e] at run
      exact ih (s := { s with readData := some w, tick := n }) allowed.2 (inv.reads w n) run
    · obtain ⟨u, presented, effect⟩ := presentCommand_next w s
      rw [runAccesses, e, presented] at run
      have params : u.params = s.params := (access_frame (.commands _ effect)).params
      obtain ⟨unmasked, busError⟩ := ih (by rw [params]; exact allowed.2) (inv.writes presented) run
      exact ⟨unmasked, busError.trans effect.busError⟩

theorem commandWritesAllowed_of_bodyAllowed {p : Params} {src : Source} {body : List Access}
    (h : bodyAllowed p src body = true) :
    body.all (accessAllowed p) = true ∧ commandWritesAllowed (commandWrites body) = true := by
  rw [bodyAllowed.eq_def, Bool.and_eq_true] at h
  refine ⟨h.1, ?_⟩
  cases src with
  | calTimer => rw [List.isEmpty_iff.1 h.2]; rfl
  | extiWake | rtcAlarm | sysTick | periph => exact h.2

/-- A handler whose body is one write of CMD presents its word. -/
theorem bodyAllowed_cmdWrite {p : Params} {src : Source} {w : Word} (other : src ≠ .calTimer)
    (noBegin : decodeWord w ≠ .ok .csBegin) : bodyAllowed p src [.write p.blockBase 4 w] = true := by
  have admitted : admittedReg p p.blockBase 4 = some .cmd := by simp [admittedReg, offsetOf, regAt]
  have notBegin : decodesTo w .csBegin = false := by rwa [← Bool.not_eq_true, decodesTo_iff]
  cases src with
  | calTimer => exact absurd rfl other
  | extiWake | rtcAlarm | sysTick | periph =>
    simp [bodyAllowed, accessAllowed, admitted, commandWrites, commandWritesAllowed, notBegin]

theorem runAccesses_cmdWrite (s : State) (w : Word) :
    runAccesses [.write s.params.blockBase 4 w] s = presentCommand w s := by
  obtain ⟨t, presented, _⟩ := presentCommand_next w s
  have run : runAccess (.write s.params.blockBase 4 w) s = .next t := (runAction_cmdWrite s w).trans presented
  simp only [runAccesses, run, presented]

/-- Settles O40: a handler is entered with interrupts enabled, so with no section open, and its body ends there too. -/
theorem handlerKeepsInterruptEnable : Obligations.HandlerKeepsInterruptEnable := by
  intro s t src body rest inv head h
  rw [step_of_agenda head, runAction] at h
  rcases handlerStep_cases src body { s with agenda := rest } with ⟨enabled, allowed, e⟩ | ⟨disabled, e⟩
  · have run := e.symm.trans h
    obtain ⟨ie, _⟩ := (handlerEnabled_iff _ src).1 enabled
    have closed : s.csActive = false := eq_false_of_ne_true fun opened => nomatch ie.symm.trans (inv opened)
    obtain ⟨accesses, writes⟩ := commandWritesAllowed_of_bodyAllowed allowed
    have unmasked : Unmasked (handlerEntry src { s with agenda := rest }) :=
      ⟨(handlerEntry_csActive _ _).trans closed, (handlerEntry_ie _ _).trans ie⟩
    obtain ⟨after, busError⟩ :=
      runAccesses_allowed (by rw [handlerEntry_params]; exact accesses) (.inl ⟨unmasked, writes⟩) run
    refine ⟨after.ie.trans ie.symm, after.csActive.trans closed.symm,
      busError.trans (congrArg _ (handlerEntry_fault src _)), ?_⟩
    rintro w rfl _ _ _
    rw [← runAccesses_cmdWrite, handlerEntry_params]
    exact run
  · cases e.symm.trans h
    refine ⟨rfl, rfl, rfl, ?_⟩
    rintro w rfl happens other noBegin
    rw [bodyAllowed_cmdWrite other noBegin, Bool.and_true] at disabled
    cases disabled.symm.trans happens

end Sys2Proof.Machine
end

section
/-! SUPPORT. Proofs about single phases: FATAL (R233), waits whose condition does not hold (R234), the issue steps of the cold
sequence (R151 to R157), the phases of ENTER_STOP and EXIT_STOP (R121 to R142) and the halts (R129, R131). -/

namespace Sys2Proof.Machine

/-! ### FATAL (R233) -/

theorem fsmStep_fatal (d : Draws) {s : State} (fatal : s.seqPhase = .fatal) : fsmStep d s = none :=
  fsmStep_of_seqPhase d fatal

theorem FsmEffect.not_fatal {d : Draws} {s t : State} (h : FsmEffect d s t) : s.seqPhase ≠ .fatal := by
  intro fatal
  cases h <;> cases fatal.symm.trans ‹s.seqPhase = _›

/-- The five cold steps (R152). -/
def coldPollPhases : List Phase := [.ccVos, .ccOsc, .ccPll, .ccSysclk, .ccRtcclk]

/-- FATAL is entered by the FAIL of one of the five cold steps. -/
theorem FsmEffect.enters_fatal {d : Draws} {s t : State} (h : FsmEffect d s t) (fatal : t.seqPhase = .fatal) :
    s.seqPhase ∈ coldPollPhases ∧ s.issued = true ∧ ∃ k, t = coldFail k s := by
  cases h
  case ccVosFail at_phase issued _ | ccOscFail at_phase issued _ | ccPllFail at_phase issued _
      | ccSysclkFail at_phase issued _ | ccRtcclkFail at_phase issued _ =>
    exact ⟨by simp [at_phase, coldPollPhases], issued, _, rfl⟩
  case ccVosIssue at_phase _ | ccOscIssue at_phase _ | ccPllIssue at_phase _ | ccSysclkIssue at_phase _
      | ccRtcclkIssue at_phase _ | crVosIssue at_phase _ | crHseIssue at_phase _ | crPllIssue at_phase _
      | crSwIssue at_phase _ | esHaltIssue at_phase _ | slHaltIssue at_phase _ =>
    cases at_phase.symm.trans fatal
  all_goals cases fatal

theorem step_of_resets {s t : State} (resetting : resets s = true) (h : step s = .next t) : t.seqPhase = .idle := by
  unfold resets at resetting
  split at resetting
  · rename_i head
    rw [step_of_reset head] at h
    cases h
    rfl
  · cases resetting

theorem AgentEffect.fatal {u t : State} (h : AgentEffect u t) (fatal : u.seqPhase = .fatal) : t.seqPhase = .fatal := by
  rcases h.seqPhase with ⟨_, effect⟩ | kept | ⟨idle, _⟩
  · exact absurd fatal effect.not_fatal
  · exact kept.trans fatal
  · cases fatal.symm.trans idle

/-- Outside the FSM's steps the clock fields the FSM writes stay. -/
theorem AgentEffect.sameWrites {u t : State} (h : AgentEffect u t) (fatal : u.seqPhase = .fatal) :
    SameWrites u.clk t.clk := by
  cases h with
  | fsm _ _ effect => exact absurd fatal effect.not_fatal
  | env _ effect => exact effect.sameWrites
  | access _ effect => exact .of_eq (access_frame effect).clk
  | handler src _ _ _ run => exact .of_eq ((runAccesses_frame run).clk.trans (handlerEntry_clk src u))
  | unchanged => exact .of_eq rfl

/-- Settles O42: in FATAL the FSM has no step and no other agent moves SEQ_PHASE; only a cold step's FAIL enters it. -/
theorem fatalHoldsUntilReset : Obligations.FatalHoldsUntilReset := by
  refine ⟨fun s t fatal h noReset => ?_, fun s d => fsmStep_fatal d, fun s t notYet h fatal => ?_⟩
  · obtain ⟨_, _, agent⟩ := step_agent h noReset
    have stays := agent.fatal fatal
    have writes := agent.sameWrites fatal
    exact ⟨stays, by simp [stays], by simp [stays], writes.pllOn, writes.sw⟩
  · cases resetting : resets s with
    | true => cases (step_of_resets resetting h).symm.trans fatal
    | false =>
      obtain ⟨_, _, agent⟩ := step_agent h resetting
      rcases agent.seqPhase with ⟨_, effect⟩ | kept | ⟨_, op, entered⟩
      · obtain ⟨at_phase, issued, k, rfl⟩ := effect.enters_fatal fatal
        exact ⟨at_phase, issued, rfl, rfl, rfl⟩
      · exact absurd (kept.symm.trans fatal) notYet
      · have first := entered.symm.trans fatal
        cases op <;> cases first

/-! ### Waits (R234) -/

theorem fsmStep_slHalt (d : Draws) {s : State} (at_phase : s.seqPhase = .slHalt) : fsmStep d s = slHalt d s := by
  simp only [fsmStep, at_phase]

theorem wakeSource_eq_none {l : List Source} {x : Source} {s : State} (none : l.any (wakes s) = false) :
    wakeSource l x s = Option.none := by
  rw [← Option.not_isSome_iff_eq_none, wakeSource_isSome, none]
  exact Bool.false_ne_true

/-- A cold poll without a status has no step (R152). -/
theorem fsmStep_cold_of_no_status {d : Draws} {s : State} (at_phase : s.seqPhase ∈ coldPollPhases)
    (issued : s.issued = true) (absent : d.status = none) : fsmStep d s = none := by
  have row : ∃ k cond seen succ, (k, s.seqPhase, cond, seen, succ) ∈ coldSteps s.clk := by
    simp only [coldPollPhases, List.mem_cons, List.not_mem_nil, or_false] at at_phase
    rcases at_phase with p | p | p | p | p <;> simp [coldSteps, p]
  obtain ⟨k, cond, seen, succ, row⟩ := row
  rw [fsmStep_coldSteps row rfl issued, coldComplete_of_no_status absent]

/-- The waits whose condition does not hold. -/
def UnmetWait (d : Draws) (s : State) : Prop :=
  (s.issued = true ∧
    ((s.seqPhase = .crVos ∧ s.clk.vosRdy = false) ∨ (s.seqPhase = .crHse ∧ s.clk.hseRdy = false) ∨
     (s.seqPhase = .crPll ∧ s.clk.pllLock = false) ∨ (s.seqPhase = .crSw ∧ s.clk.sws ≠ .pll) ∨
     (s.seqPhase = .esHalt ∧ stopWake s = false) ∨ (s.seqPhase = .slHalt ∧ sleepWake s = false) ∨
     (s.seqPhase ∈ coldPollPhases ∧ d.status = none))) ∨
  (s.seqPhase = .calWait ∧ s.cal.calDone = false)

theorem ClockSource.eq_internal {c : ClockSource} (h : c ≠ .pll) : c = .internal := by
  cases c
  · rfl
  · exact absurd rfl h

theorem UnmetWait.no_step {d : Draws} {s : State} (h : UnmetWait d s) : fsmStep d s = none := by
  rcases h with ⟨issued, ⟨p, unmet⟩ | ⟨p, unmet⟩ | ⟨p, unmet⟩ | ⟨p, unmet⟩ | ⟨p, unmet⟩ | ⟨p, unmet⟩ | ⟨p, absent⟩⟩ | ⟨p, unmet⟩
  · exact resumeRule_wait (fsmStep_crVos d p) issued unmet
  · exact resumeRule_wait (fsmStep_crHse d p) issued unmet
  · exact resumeRule_wait (fsmStep_crPll d p) issued unmet
  · exact (fsmStep_crSw d p).trans (crSw_of_unswitched issued (ClockSource.eq_internal unmet))
  · rw [fsmStep_esHalt d p, esHalt, if_pos issued, wakeSource_eq_none unmet, Option.map_none]
  · rw [fsmStep_slHalt d p, slHalt, if_pos issued, wakeSource_eq_none unmet, Option.map_none]
  · exact fsmStep_cold_of_no_status p issued absent
  · exact (fsmStep_calWait d p).trans (calWait_of_not_calDone unmet)

/-- Settles O43: the FSM has no step, also once the agenda has moved on, so its turn changes nothing. -/
theorem unmetWaitsHaveNoStep : Obligations.UnmetWaitsHaveNoStep := by
  intro s d unmet
  refine ⟨UnmetWait.no_step unmet, fun rest head => ?_⟩
  have none : fsmStep d { s with agenda := rest } = none := UnmetWait.no_step unmet
  rw [step_of_agenda head, runAction, fsmTurn, none, Option.getD_none]

/-! ### The cold sequence's issue steps (R151 to R157) -/

theorem fsmStep_ccSystick (d : Draws) {s : State} (at_phase : s.seqPhase = .ccSystick) :
    fsmStep d s = some (ccSystick s) := by
  simp only [fsmStep, at_phase]

/-- Settles O45: with ISSUED = 0 each rule issues, and CC_SYSTICK's return branches on CUR_CMD. -/
theorem coldPhaseWrites : Obligations.ColdPhaseWrites := by
  intro s d
  have notIssued (fresh : s.issued = false) : ¬ s.issued = true := Bool.eq_false_iff.1 fresh
  refine ⟨fun at_phase fresh => (fsmStep_ccVos d at_phase).trans (if_neg (notIssued fresh)),
    fun at_phase fresh => (fsmStep_ccOsc d at_phase).trans (if_neg (notIssued fresh)),
    fun at_phase fresh => (fsmStep_ccPll d at_phase).trans (if_neg (notIssued fresh)),
    fun at_phase fresh => (fsmStep_ccSysclk d at_phase).trans (if_neg (notIssued fresh)),
    fun at_phase fresh => (fsmStep_ccRtcclk d at_phase).trans (if_neg (notIssued fresh)),
    fun at_phase init => ?_, fun at_phase other => ?_⟩
  · rw [fsmStep_ccSystick d at_phase, ccSystick, if_pos init, goto]
  · rw [fsmStep_ccSystick d at_phase, ccSystick, if_neg other, done]

/-! ### ENTER_STOP up to the halt, EXIT_STOP's first and last phase (R121 to R128, R141, R142) -/

theorem exec_csEnd_ofBool (b : Bool) (s : State) : exec (.csEnd (BitVec.ofBool b)) s = .next (csEnd b s) := by
  rw [exec, execCsEnd, tokenBit_ofBool]

/-- Settles O49: each clause is its phase's rule; the Begin and End phases run the commands' effects. -/
theorem stopPhases : Obligations.StopPhases := by
  intro s d
  have byPhase {p : Phase} : s.seqPhase = p → fsmStep d s = fsmStep d { s with seqPhase := p } :=
    fsmStep_of_seqPhase d
  refine ⟨fun at_phase => ⟨_, rfl, ?_⟩, byPhase, byPhase, fun at_phase => ?_,
    fun at_phase => ⟨_, exec_csEnd_ofBool s.csToken s, ?_⟩, byPhase, byPhase, byPhase, fun at_phase => ⟨_, rfl, ?_⟩,
    fun at_phase => ⟨_, exec_csEnd_ofBool s.csToken s, ?_⟩⟩
  · simp only [fsmStep, at_phase, esCsBegin, goto]
  · cases usb : s.params.hasUsb <;> simp [fsmStep, at_phase, esPins, usb]
  · simp only [fsmStep, at_phase, esCsEnd, goto]
  · simp only [fsmStep, at_phase, xsCsBegin, goto]
  · simp only [fsmStep, at_phase, xsCsEnd, done]

/-! ### The halts (R129, R131) -/

theorem esHalt_of_fresh (d : Draws) {s : State} (fresh : s.issued = false) : esHalt d s = some (esHaltIssue s) :=
  if_neg (Bool.eq_false_iff.1 fresh)

theorem slHalt_of_fresh (d : Draws) {s : State} (fresh : s.issued = false) : slHalt d s = some (slHaltIssue s) :=
  if_neg (Bool.eq_false_iff.1 fresh)

theorem esHalt_of_wakeSource {d : Draws} {s : State} {src : Source} (issued : s.issued = true)
    (wake : wakeSource stopSources d.wakeSrc s = some src) : esHalt d s = some (stopWakeStep src d.wakeClk s) := by
  rw [esHalt, if_pos issued, wake, Option.map_some]

theorem slHalt_of_wakeSource {d : Draws} {s : State} {src : Source} (issued : s.issued = true)
    (wake : wakeSource sleepSources d.wakeSrc s = some src) : slHalt d s = some (sleepWakeStep src s) := by
  rw [slHalt, if_pos issued, wake, Option.map_some]

theorem exists_wakeSource {l : List Source} (x : Source) {s : State} (any : l.any (wakes s) = true) :
    ∃ src, wakeSource l x s = some src ∧ src ∈ l ∧ wakes s src = true := by
  rw [← wakeSource_isSome l x] at any
  obtain ⟨src, wake⟩ := Option.isSome_iff_exists.1 any
  exact ⟨src, wake, wakeSource_wakes wake⟩

/-- A drawn source that qualifies is the one taken. -/
theorem wakeSource_of_wakes {l : List Source} {src : Source} {s : State} (member : src ∈ l)
    (wake : wakes s src = true) : wakeSource l src s = some src :=
  if_pos (by simp [member, wake])

theorem mem_sleepSources (src : Source) : src ∈ sleepSources := by
  cases src <;> decide

/-- Settles O50: the wake is taken by a qualifying source exactly when there is one, by the drawn one if it qualifies. -/
theorem haltPhases : Obligations.HaltPhases := by
  intro s d
  refine ⟨fun at_phase fresh => (fsmStep_esHalt d at_phase).trans (esHalt_of_fresh d fresh),
    fun at_phase issued wake => ?_, fun at_phase issued asleep => ?_,
    fun at_phase fresh => (fsmStep_slHalt d at_phase).trans (slHalt_of_fresh d fresh),
    fun at_phase issued wake => ?_, fun at_phase issued asleep => ?_,
    fun src member at_phase issued wake drawn => ?_, fun src at_phase issued wake drawn => ?_⟩
  · obtain ⟨src, source, member, woken⟩ := exists_wakeSource d.wakeSrc wake
    exact ⟨src, member, woken, (fsmStep_esHalt d at_phase).trans (esHalt_of_wakeSource issued source)⟩
  · exact UnmetWait.no_step (.inl ⟨issued, by simp [at_phase, asleep]⟩)
  · obtain ⟨src, source, _, woken⟩ := exists_wakeSource d.wakeSrc wake
    exact ⟨src, woken, (fsmStep_slHalt d at_phase).trans (slHalt_of_wakeSource issued source)⟩
  · exact UnmetWait.no_step (.inl ⟨issued, by simp [at_phase, asleep]⟩)
  · subst drawn
    exact ⟨_, (fsmStep_esHalt d at_phase).trans (esHalt_of_wakeSource issued (wakeSource_of_wakes member wake)), rfl⟩
  · subst drawn
    exact ⟨_, (fsmStep_slHalt d at_phase).trans
      (slHalt_of_wakeSource issued (wakeSource_of_wakes (mem_sleepSources _) wake)), rfl⟩

end Sys2Proof.Machine
end

section
/-! SUPPORT. Proofs about whole commands under the healthy schedule (95_test_vectors.md): one lemma per stretch of the
schedule, composed by `runSteps_then`. -/

namespace Sys2Proof.Machine

/-! ### Composing runs -/

theorem runSteps_then {m n : Nat} {s t : State} {o : Host.Outcome State Fault Refusal} (first : runSteps m s = .next t)
    (second : runSteps n t = o) : runSteps (m + n) s = o := by
  induction m generalizing s with
  | zero =>
    cases first
    rw [Nat.zero_add]
    exact second
  | succ m ih =>
    obtain ⟨u, hu⟩ := step_next s
    rw [runSteps, hu] at first
    rw [Nat.succ_add, runSteps, hu]
    exact ih first

theorem runSteps_one {s t : State} (h : step s = .next t) : runSteps 1 s = .next t := by
  simp only [runSteps, h]

theorem runSteps_fsm {s t : State} {d : Draws} {rest : List Action} (head : s.agenda = .fsm d :: rest)
    (moves : fsmStep d { s with agenda := rest } = some t) : runSteps 1 s = .next t :=
  runSteps_one ((step_of_agenda head).trans (congrArg Host.Outcome.next (by rw [fsmTurn, moves, Option.getD_some])))

/-- A sequence command written at rest starts. -/
theorem runSteps_start {op : SeqOp} {s : State} {rest : List Action} (rests : atRest s)
    (ready : needsInitialized op = true → s.lifecycle = .initialized)
    (head : s.agenda = cmdWrite s.params (encodeWord op.instr) :: rest) :
    runSteps 1 s = .next { s with agenda := rest, curCmd := some op, issued := false, evt := s.evt ++ [.cmd op], seqPhase := firstPhase op } := by
  refine runSteps_one ((step_of_cmdWrite head).trans ?_)
  rw [presentCommand_of_decodeWord _ (decodeWord_encodeWord _),
    exec_instr_of_ready (s := { s with agenda := rest }) rests.1 ready, start]

/-! ### The environment makes what a phase waits for

Where the flag is up already the environment's step is not enabled and the flag is as the step would leave it. -/

section
variable {s : State}

theorem envStep_raiseVosRdy (on : s.clk.vosFull = true) :
    envStep .raiseVosRdy s = { s with clk := { s.clk with vosRdy := true } } :=
  ite_eq_left_iff.2 fun blocked => by
    have up : s.clk.vosRdy = true := by simpa [vosMayRise, on] using blocked
    rw [← up]

theorem envStep_raiseHseRdy (on : s.clk.hseOn = true) :
    envStep .raiseHseRdy s = { s with clk := { s.clk with hseRdy := true } } :=
  ite_eq_left_iff.2 fun blocked => by
    have up : s.clk.hseRdy = true := by simpa [hseMayRise, on] using blocked
    rw [← up]

theorem envStep_raiseLseRdy (on : s.clk.lseOn = true) :
    envStep .raiseLseRdy s = { s with clk := { s.clk with lseRdy := true } } :=
  ite_eq_left_iff.2 fun blocked => by
    have up : s.clk.lseRdy = true := by simpa [lseMayRise, on] using blocked
    rw [← up]

theorem envStep_raisePllLock (on : s.clk.pllOn = true) (source : s.clk.pllSrcHse = true)
    (oscillator : s.clk.hseRdy = true) :
    envStep .raisePllLock s = { s with clk := { s.clk with pllLock := true } } :=
  ite_eq_left_iff.2 fun blocked => by
    have up : s.clk.pllLock = true := by simpa [lockMayRise, on, source, oscillator] using blocked
    rw [← up]

theorem envStep_updateSws (locked : s.clk.pllLock = true) :
    envStep .updateSws s = { s with clk := { s.clk with sws := s.clk.sw } } := by
  simp [envStep, swsMayFollow, locked]

end

/-! ### The resume sequence (R161 to R164) -/

/-- Where the resume sequence goes on (R164). -/
def resumeReturn (s : State) : State :=
  if s.curCmd = some .sysInit ∨ s.curCmd = some .exitStop then goto .siAdc s else done s

theorem crSwDone_eq (s : State) :
    crSwDone s = resumeReturn { s with evt := s.evt ++ [.observed .swsPll], issued := false } := rfl

section
variable {s : State} {d : Draws} {rest : List Action}

theorem run_crVos (at_phase : s.seqPhase = .crVos) (fresh : s.issued = false)
    (head : s.agenda = .fsm d :: .env .raiseVosRdy :: .fsm d :: rest) :
    runSteps 3 s = .next { s with agenda := rest, clk := { s.clk with vosFull := true, vosRdy := true }, counters := { s.counters with resumeSeq := s.counters.resumeSeq + 1 }, evt := s.evt ++ [.clkWrite .vosFull 1, .observed .vosRdy], issued := false, seqPhase := .crHse } := by
  simp [runSteps, step, nextStep, head, runAction, fsmTurn, fsmStep, at_phase, crVos, fresh, crVosIssue,
    envStep_raiseVosRdy, resumeComplete]

theorem run_crHse (at_phase : s.seqPhase = .crHse) (fresh : s.issued = false)
    (head : s.agenda = .fsm d :: .env .raiseHseRdy :: .fsm d :: rest) :
    runSteps 3 s = .next { s with agenda := rest, clk := { s.clk with hseOn := true, hseRdy := true }, evt := s.evt ++ [.clkWrite .hseOn 1, .observed .hseRdy], issued := false, seqPhase := .crPll } := by
  simp [runSteps, step, nextStep, head, runAction, fsmTurn, fsmStep, at_phase, crHse, fresh, crHseIssue,
    envStep_raiseHseRdy, resumeComplete]

theorem run_crPll (at_phase : s.seqPhase = .crPll) (fresh : s.issued = false) (oscillator : s.clk.hseRdy = true)
    (head : s.agenda = .fsm d :: .env .raisePllLock :: .fsm d :: rest) :
    runSteps 3 s = .next { s with agenda := rest, clk := { s.clk with pllSrcHse := true, pllOn := true, pllLock := true }, evt := s.evt ++ [.clkWrite .pllSrcHse 1, .clkWrite .pllOn 1, .observed .pllLock], issued := false, seqPhase := .crSw } := by
  simp [runSteps, step, nextStep, head, runAction, fsmTurn, fsmStep, at_phase, crPll, fresh, pllIssue,
    envStep_raisePllLock, oscillator, resumeComplete]

theorem run_crSw (at_phase : s.seqPhase = .crSw) (fresh : s.issued = false) (locked : s.clk.pllLock = true)
    (head : s.agenda = .fsm d :: .env .updateSws :: .fsm d :: rest) :
    runSteps 3 s = .next (resumeReturn { s with agenda := rest, clk := { s.clk with sw := .pll, sws := .pll }, evt := s.evt ++ [.clkWrite .sw 3, .observed .swsPll], issued := false }) := by
  simp [runSteps, step, nextStep, head, runAction, fsmTurn, fsmStep, at_phase, crSw, fresh, crSwIssue,
    envStep_updateSws, locked, crSwDone_eq]

/-- The resume sequence under the healthy schedule, whoever called it. -/
theorem run_resume (at_phase : s.seqPhase = .crVos) (fresh : s.issued = false)
    (head : s.agenda = resumeSchedule d ++ rest) :
    runSteps 12 s = .next (resumeReturn { s with agenda := rest, clk := resumed s.clk, counters := { s.counters with resumeSeq := s.counters.resumeSeq + 1 }, evt := s.evt ++ resumeEvents, issued := false, seqPhase := .crSw }) := by
  have pll := runSteps_then (run_crVos at_phase fresh head) (run_crHse rfl rfl rfl)
  have switched := runSteps_then pll (runSteps_then (run_crPll rfl rfl rfl rfl) (run_crSw rfl rfl rfl rfl))
  simpa [resumeEvents, resumed] using switched

end

/-! ### CLK_RESUME -/

/-- Settles O52, by the acceptance and the resume sequence. -/
theorem clkResumeRunsToRunning : Obligations.ClkResumeRunsToRunning := by
  intro s d rest rests head
  have started := runSteps_start (op := .clkResume) rests (by simp [needsInitialized]) head
  have run := runSteps_then started (run_resume rfl rfl rfl)
  simpa [resumeReturn, done, rests.1, rests.2.1, rests.2.2] using run

/-! ### The cold sequence (R151 to R157) -/

/-- Where the cold sequence goes on (R157). -/
def coldReturn (s : State) : State :=
  if s.curCmd = some .sysInit then goto .siConsole s else done s

theorem ccSystick_eq (s : State) :
    ccSystick s = coldReturn { s with clk := { s.clk with systickOn := true }, evt := s.evt ++ [.clkWrite .systickOn 1] } := rfl

section
variable {s : State} {d : Draws} {rest : List Action}

theorem run_ccVos (at_phase : s.seqPhase = .ccVos) (fresh : s.issued = false)
    (head : s.agenda = .fsm d :: .env .raiseVosRdy :: .fsm (okDraws d) :: rest) :
    runSteps 3 s = .next { s with agenda := rest, clk := { s.clk with vosFull := true, vosRdy := true }, counters := { s.counters with coldSeq := s.counters.coldSeq + 1 }, evt := s.evt ++ [.clkWrite .vosFull 1, .observed .vosRdy, .status 1 .ok], issued := false, seqPhase := .ccOsc } := by
  simp [runSteps, step, nextStep, head, runAction, fsmTurn, fsmStep, at_phase, ccVos, fresh, ccVosIssue,
    envStep_raiseVosRdy, coldComplete, okDraws, coldOk]

theorem run_ccOsc (at_phase : s.seqPhase = .ccOsc) (fresh : s.issued = false)
    (head : s.agenda = .fsm d :: .env .raiseHseRdy :: .env .raiseLseRdy :: .fsm (okDraws d) :: rest) :
    runSteps 4 s = .next { s with agenda := rest, clk := { s.clk with hseOn := true, hseRdy := true, lseOn := true, lseRdy := true }, evt := s.evt ++ [.clkWrite .hseOn 1, .clkWrite .lseOn 1, .observed .hseLseRdy, .status 2 .ok], issued := false, seqPhase := .ccPll } := by
  simp [runSteps, step, nextStep, head, runAction, fsmTurn, fsmStep, at_phase, ccOsc, fresh, ccOscIssue,
    envStep_raiseHseRdy, envStep_raiseLseRdy, coldComplete, okDraws, coldOk]

theorem run_ccPll (at_phase : s.seqPhase = .ccPll) (fresh : s.issued = false) (oscillator : s.clk.hseRdy = true)
    (head : s.agenda = .fsm d :: .env .raisePllLock :: .fsm (okDraws d) :: rest) :
    runSteps 3 s = .next { s with agenda := rest, clk := { s.clk with pllSrcHse := true, pllOn := true, pllLock := true }, evt := s.evt ++ [.clkWrite .pllSrcHse 1, .clkWrite .pllOn 1, .observed .pllLock, .status 3 .ok], issued := false, seqPhase := .ccSysclk } := by
  simp [runSteps, step, nextStep, head, runAction, fsmTurn, fsmStep, at_phase, ccPll, fresh, pllIssue,
    envStep_raisePllLock, oscillator, coldComplete, okDraws, coldOk]

theorem run_ccSysclk (at_phase : s.seqPhase = .ccSysclk) (fresh : s.issued = false) (locked : s.clk.pllLock = true)
    (head : s.agenda = .fsm d :: .env .updateSws :: .fsm (okDraws d) :: rest) :
    runSteps 3 s = .next { s with agenda := rest, clk := { s.clk with sw := .pll, sws := .pll, busdivSet := true }, evt := s.evt ++ [.clkWrite .sw 3, .clkWrite .busdivSet 1, .observed .swsPll, .status 4 .ok], issued := false, seqPhase := .ccRtcclk } := by
  simp [runSteps, step, nextStep, head, runAction, fsmTurn, fsmStep, at_phase, ccSysclk, fresh, ccSysclkIssue,
    envStep_updateSws, locked, coldComplete, okDraws, coldOk]

theorem run_ccRtcclk (at_phase : s.seqPhase = .ccRtcclk) (fresh : s.issued = false)
    (head : s.agenda = .fsm d :: .fsm (okDraws d) :: rest) :
    runSteps 2 s = .next { s with agenda := rest, clk := { s.clk with rtcselLse := true }, evt := s.evt ++ [.clkWrite .rtcselLse 1, .status 5 .ok], issued := false, seqPhase := .ccSystick } := by
  simp [runSteps, step, nextStep, head, runAction, fsmTurn, fsmStep, at_phase, ccRtcclk, fresh, ccRtcclkIssue,
    coldComplete, okDraws, coldOk]

theorem run_ccSystick (at_phase : s.seqPhase = .ccSystick) (head : s.agenda = .fsm d :: rest) :
    runSteps 1 s = .next (coldReturn { s with agenda := rest, clk := { s.clk with systickOn := true }, evt := s.evt ++ [.clkWrite .systickOn 1] }) := by
  simp [runSteps, step, nextStep, head, runAction, fsmTurn, fsmStep, at_phase, ccSystick_eq]

/-- The cold sequence under the healthy schedule, whoever called it. -/
theorem run_cold (at_phase : s.seqPhase = .ccVos) (fresh : s.issued = false) (head : s.agenda = coldSchedule d ++ rest) :
    runSteps 16 s = .next (coldReturn { s with agenda := rest, clk := coldStarted s.clk, counters := { s.counters with coldSeq := s.counters.coldSeq + 1 }, evt := s.evt ++ coldEvents, issued := false, seqPhase := .ccSystick }) := by
  have oscillators := runSteps_then (run_ccVos at_phase fresh head) (run_ccOsc rfl rfl rfl)
  have switched := runSteps_then oscillators (runSteps_then (run_ccPll rfl rfl rfl rfl) (run_ccSysclk rfl rfl rfl rfl))
  have ticking := runSteps_then switched (runSteps_then (run_ccRtcclk rfl rfl rfl) (run_ccSystick rfl rfl))
  simpa [coldEvents, coldStarted, resumed] using ticking

end

/-! ### CLK_COLD -/

/-- Settles O53, by the acceptance and the cold sequence. -/
theorem clkColdRunsToRunning : Obligations.ClkColdRunsToRunning := by
  intro s d rest rests head
  have started := runSteps_start (op := .clkCold) rests (by simp [needsInitialized]) head
  have run := runSteps_then started (run_cold rfl rfl rfl)
  simpa [coldReturn, done, rests.1, rests.2.1, rests.2.2] using run

/-! ### Interrupts and their handlers (R235 to R238) -/

section
variable {s : State} {src : Source} {rest : List Action}

theorem handlerEntry_eq (other : src ≠ .calTimer) :
    handlerEntry src s = { s with pending := s.pending.set src false, evt := s.evt ++ [.handler src] } := by
  cases src with
  | calTimer => exact absurd rfl other
  | extiWake | rtcAlarm | sysTick | periph => rfl

theorem runSteps_handler (enabled : handlerEnabled s src = true) (head : s.agenda = .handler src [] :: rest) :
    runSteps 1 s = .next (handlerEntry src { s with agenda := rest }) :=
  runSteps_one ((step_of_agenda head).trans (handlerStep_of_enabled (s := { s with agenda := rest }) enabled
    (bodyAllowed_of_no_writes rfl rfl)))

theorem runSteps_setPending (may : mayPend s src = true) (head : s.agenda = .env (.setPending src) :: rest) :
    runSteps 1 s = .next (pend src { s with agenda := rest }) :=
  runSteps_one ((step_of_agenda head).trans (congrArg _ (if_pos (c := mayPend { s with agenda := rest } src = true) may)))

/-- An armed timer's interrupt is pending after the environment's step, whether it was before or not. -/
theorem envStep_setPending_calTimer (armed : s.cal.timerArmed = true) :
    envStep (.setPending .calTimer) s = { s with pending := { s.pending with calTimer := true } } := by
  have pended : pend .calTimer s = { s with pending := { s.pending with calTimer := true } } := by
    simp [pend, Pending.set, stopSources]
  rw [← pended]
  refine ite_eq_left_iff.2 fun blocked => ?_
  have up : s.pending.calTimer = true := by simpa [mayPend, armed] using blocked
  rw [pended, ← up]

end

/-! ### The calibrator (R191 to R195) -/

section
variable {s : State} {d : Draws} {rest : List Action}

theorem run_calArm (at_phase : s.seqPhase = .calCheck) (notYet : s.calState ≠ .calibrated)
    (head : s.agenda = .fsm d :: .fsm d :: rest) :
    runSteps 2 s = .next { s with agenda := rest, calState := .calibrating, cal := ⟨true, false⟩, enable := { s.enable with calTimer := true }, counters := { s.counters with calArm := s.counters.calArm + 1 }, evt := s.evt ++ [.timerArm s.params.calDuration], seqPhase := .calWait } := by
  simp [runSteps, step, nextStep, head, runAction, fsmTurn, fsmStep, at_phase, calCheck_of_ne_calibrated, notYet, goto,
    calArm]

theorem run_calTimer (armed : s.cal.timerArmed = true) (on : s.enable.calTimer = true) (ie : s.ie = true)
    (running : s.powerMode = .run) (head : s.agenda = .env (.setPending .calTimer) :: .handler .calTimer [] :: rest) :
    runSteps 2 s = .next { s with agenda := rest, cal := ⟨false, true⟩, enable := { s.enable with calTimer := false }, pending := { s.pending with calTimer := false }, evt := s.evt ++ [.handler .calTimer] } := by
  have pended : runSteps 1 s = .next { s with agenda := .handler .calTimer [] :: rest, pending := { s.pending with calTimer := true } } :=
    runSteps_one ((step_of_agenda head).trans
      (congrArg Host.Outcome.next (envStep_setPending_calTimer (s := { s with agenda := _ }) armed)))
  exact runSteps_then pended (runSteps_handler (src := .calTimer) ((handlerEnabled_iff _ _).2 ⟨ie, running, rfl, on⟩) rfl)

theorem run_calRecord (at_phase : s.seqPhase = .calWait) (timerDone : s.cal.calDone = true)
    (head : s.agenda = .fsm d :: .fsm d :: rest) :
    runSteps 2 s = .next (calReturn { s with agenda := rest, calState := .calibrated, wakeLatency := some d.wakeLatency, evt := s.evt ++ [.recordWakeLatency d.wakeLatency], seqPhase := .calRecord }) := by
  simp [runSteps, step, nextStep, head, runAction, fsmTurn, fsmStep, at_phase, calWait_of_calDone, timerDone, goto,
    calRecord]

/-- The calibrator's phases under the healthy schedule, whoever called them: one arming, one recording. -/
theorem run_calibration (at_phase : s.seqPhase = .calCheck) (notYet : s.calState ≠ .calibrated) (ie : s.ie = true)
    (running : s.powerMode = .run) (head : s.agenda = calSchedule d ++ rest) :
    runSteps 6 s = .next (calReturn { s with agenda := rest, calState := .calibrated, cal := ⟨false, true⟩, enable := { s.enable with calTimer := false }, pending := { s.pending with calTimer := false }, counters := { s.counters with calArm := s.counters.calArm + 1 }, wakeLatency := some d.wakeLatency, evt := s.evt ++ [.timerArm s.params.calDuration, .handler .calTimer, .recordWakeLatency d.wakeLatency], seqPhase := .calRecord }) := by
  have handled := runSteps_then (run_calArm at_phase notYet head) (run_calTimer rfl rfl ie running rfl)
  simpa using runSteps_then handled (run_calRecord rfl rfl rfl)

theorem run_calCheck_calibrated (at_phase : s.seqPhase = .calCheck) (calibrated : s.calState = .calibrated)
    (head : s.agenda = .fsm d :: rest) : runSteps 1 s = .next (calReturn { s with agenda := rest }) := by
  simp [runSteps, step, nextStep, head, runAction, fsmTurn, fsmStep, at_phase, calCheck_of_calibrated, calibrated]

end

/-! ### CALIBRATE -/

/-- Settles O54, by the acceptance and the calibrator's phases. -/
theorem calibrateArmsOnce : Obligations.CalibrateArmsOnce := by
  refine ⟨fun s d rest rests ie running notYet head => ?_, fun s d rest rests calibrated head => ?_⟩
  all_goals have started := runSteps_start (op := .calibrate) rests (by simp [needsInitialized]) head
  · have run := runSteps_then started (run_calibration rfl notYet ie running rfl)
    simpa [calReturn, done, rests.1, rests.2.1, rests.2.2] using run
  · have run := runSteps_then started (run_calCheck_calibrated rfl calibrated rfl)
    simpa [calReturn, done, rests.1, rests.2.1, rests.2.2] using run

/-! ### ENTER_SLEEP (R131) -/

section
variable {s : State} {d : Draws} {rest : List Action}

theorem run_slHalt (at_phase : s.seqPhase = .slHalt) (fresh : s.issued = false) (head : s.agenda = .fsm d :: rest) :
    runSteps 1 s = .next { s with agenda := rest, powerMode := .sleepLight, evt := s.evt ++ [.halt .sleepLight], issued := true } := by
  simp [runSteps, step, nextStep, head, runAction, fsmTurn, fsmStep, at_phase, slHalt_of_fresh, fresh, slHaltIssue]

theorem run_sleepWake (at_phase : s.seqPhase = .slHalt) (issued : s.issued = true) (wake : wakes s d.wakeSrc = true)
    (head : s.agenda = .fsm d :: rest) :
    runSteps 1 s = .next (done { s with agenda := rest, powerMode := .run, evt := s.evt ++ [.wake .sleepLight d.wakeSrc] }) := by
  exact runSteps_fsm head ((fsmStep_slHalt (s := { s with agenda := rest }) d at_phase).trans
    (slHalt_of_wakeSource issued (wakeSource_of_wakes (mem_sleepSources _) wake)))

end

theorem mayPend_of_enabled {s : State} {src : Source} (other : src ≠ .calTimer) (enabled : enabled s src = true) :
    mayPend s src = true := by
  cases src with
  | calTimer => exact absurd rfl other
  | sysTick => exact enabled
  | extiWake | rtcAlarm | periph => rfl

theorem Pending.get_set_same (p : Pending) (src : Source) (b : Bool) : (p.set src b).get src = b := by
  simp [Pending.get_set]

theorem Pending.set_set (p : Pending) (src : Source) (b b' : Bool) : (p.set src b).set src b' = p.set src b' := by
  cases src <;> rfl

/-- Settles O55: the halt, the wake by the source the environment raises, and its handler. -/
theorem enterSleepWakesOnInterrupt : Obligations.EnterSleepWakesOnInterrupt := by
  rintro s d rest src rests ie running other on rfl head
  have started := runSteps_start (op := .enterSleep) rests (by simp [needsInitialized]) head
  have halted := runSteps_then started (run_slHalt rfl rfl rfl)
  have pended := runSteps_then halted (runSteps_setPending (mayPend_of_enabled other on) rfl)
  have woken := runSteps_then pended
    (run_sleepWake rfl rfl ((wakes_iff _ _).2 ⟨Pending.get_set_same _ _ _, on, .inr ie⟩) rfl)
  have run := runSteps_then woken
    (runSteps_handler ((handlerEnabled_iff _ _).2 ⟨ie, rfl, Pending.get_set_same _ _ _, on⟩) rfl)
  rw [handlerEntry_eq other] at run
  simpa [pend, done, Pending.set_set, stopSources, rests.1, rests.2.1, rests.2.2, running] using run

/-! ### The rebuild of SYS_INIT's resume branch and of EXIT_STOP (R108, R109, R111, R141, R142) -/

section
variable {s : State} {d : Draws} {rest : List Action}

theorem run_rebuild_sysInit (at_phase : s.seqPhase = .siAdc) (init : s.curCmd = some .sysInit)
    (again : s.coldPath = false) (head : s.agenda = List.replicate 3 (.fsm d) ++ rest) :
    runSteps 3 s = .next (done { s with agenda := rest, periph := { s.periph with adcInit := true, radioBusInit := true, stopPinsLp := false, wdgInit := true }, evt := s.evt ++ [.init .adc, .init .radioBus, .init .wdg] }) := by
  simp [runSteps, step, nextStep, head, List.replicate, runAction, fsmTurn, fsmStep, at_phase, siAdc, siRadio, again,
    siWdg, init, done]

theorem run_xsCsBegin (at_phase : s.seqPhase = .xsCsBegin) (closed : s.csActive = false)
    (head : s.agenda = .fsm d :: rest) :
    runSteps 1 s = .next { s with agenda := rest, csToken := s.ie, ie := false, csActive := true, evt := s.evt ++ [.csBegin s.ie], seqPhase := .crVos } := by
  simp [runSteps, step, nextStep, head, runAction, fsmTurn, fsmStep, at_phase, xsCsBegin, csBegin_of_closed, closed, goto]

theorem run_rebuild_exitStop (at_phase : s.seqPhase = .siAdc) (exit : s.curCmd = some .exitStop)
    (opened : s.csActive = true) (head : s.agenda = List.replicate 4 (.fsm d) ++ rest) :
    runSteps 4 s = .next (done { s with agenda := rest, ie := s.csToken, csActive := false, periph := { s.periph with adcInit := true, radioBusInit := true, stopPinsLp := false, wdgInit := true }, evt := s.evt ++ [.init .adc, .init .radioBus, .init .wdg, .csEnd s.csToken] }) := by
  simp [runSteps, step, nextStep, head, List.replicate, runAction, fsmTurn, fsmStep, at_phase, siAdc, siRadio, siWdg, exit,
    goto, xsCsEnd, csEnd, opened, done]

/-- The ExitStop sequence under the healthy schedule, explicit or after a Stop (R141, R142): it returns with the clock
resumed, the peripherals rebuilt, and IE as it was. -/
theorem run_exitStop (at_phase : s.seqPhase = .xsCsBegin) (exit : s.curCmd = some .exitStop) (fresh : s.issued = false)
    (closed : s.csActive = false)
    (head : s.agenda = .fsm d :: (resumeSchedule d ++ (List.replicate 4 (.fsm d) ++ rest))) :
    runSteps 17 s = .next (done { s with agenda := rest, csToken := s.ie, clk := resumed s.clk, counters := { s.counters with resumeSeq := s.counters.resumeSeq + 1 }, periph := { s.periph with adcInit := true, radioBusInit := true, stopPinsLp := false, wdgInit := true }, evt := s.evt ++ .csBegin s.ie :: (resumeEvents ++ [.init .adc, .init .radioBus, .init .wdg, .csEnd s.ie]) }) := by
  have clock := runSteps_then (run_xsCsBegin at_phase closed head) (run_resume rfl fresh rfl)
  rw [resumeReturn, if_pos (.inr exit)] at clock
  simpa [done, closed] using runSteps_then clock (run_rebuild_exitStop rfl exit rfl rfl)

end

/-! ### EXIT_STOP -/

/-- Settles O56, by the acceptance and the ExitStop sequence. -/
theorem exitStopRebuilds : Obligations.ExitStopRebuilds := by
  intro s d rest rests initialized closed head
  have started := runSteps_start (op := .exitStop) rests (fun _ => initialized) head
  have run := runSteps_then started (run_exitStop rfl rfl rfl closed rfl)
  simpa [done, rests.1, rests.2.1, rests.2.2] using run

/-! ### ENTER_STOP (R121 to R129) -/

section
variable {s : State} {d : Draws} {rest : List Action}

/-- The teardown from ES_CS_BEGIN to the halt. -/
theorem run_teardown (at_phase : s.seqPhase = .esCsBegin) (fresh : s.issued = false) (closed : s.csActive = false)
    (head : s.agenda = List.replicate 9 (.fsm d) ++ rest) :
    runSteps 9 s = .next { s with agenda := rest, csToken := s.ie, wuf := false, pwr := { s.pwr with borEn := false, ulp := true, fwu := true, regLp := true }, periph := { s.periph with radioBusInit := false, adcInit := false, stopPinsLp := true }, powerMode := .stop, evt := s.evt ++ ([.csBegin s.ie, .deinit .radioBus, .deinit .adc, .pinsLowLeak .osc] ++ (if s.params.hasUsb = true then [.pinsLowLeak .usb] else []) ++ [.csEnd s.ie, .pwrWrite .borEn 0, .pwrWrite .wuf 0, .pwrWrite .ulp 1, .pwrWrite .fwu 1, .pwrWrite .regLp 1, .halt .stop]), issued := true, seqPhase := .esHalt } := by
  simp [runSteps, step, nextStep, head, List.replicate, runAction, fsmTurn, fsmStep, at_phase, esCsBegin,
    csBegin_of_closed, closed, goto, esRadioDeinit, esAdcDeinit, esPins, esCsEnd, csEnd, esBorOff, esClrWuf, esUlpFwu, esHalt,
    fresh, esHaltIssue]

theorem run_stopWake (at_phase : s.seqPhase = .esHalt) (issued : s.issued = true) (member : d.wakeSrc ∈ stopSources)
    (wake : wakes s d.wakeSrc = true) (head : s.agenda = .fsm d :: rest) :
    runSteps 1 s = .next { s with agenda := rest, powerMode := .run, evt := s.evt ++ [.wake .stop d.wakeSrc], clk := s.clk.afterWake d.wakeClk, curCmd := some .exitStop, issued := false, seqPhase := .xsCsBegin } :=
  runSteps_fsm head ((fsmStep_esHalt (s := { s with agenda := rest }) d at_phase).trans
    (esHalt_of_wakeSource issued (wakeSource_of_wakes member wake)))

end

/-- The resume sequence writes every clock field a wake draws. -/
theorem resumed_afterWake (w : WakeDraw) (c : ClkCtrl) : resumed (c.afterWake w) = resumed c := rfl

/-- Settles O57: the teardown, the wake and its handler, the ExitStop sequence. -/
theorem enterStopReturnsRebuilt : Obligations.EnterStopReturnsRebuilt := by
  rintro s d rest src rests initialized closed ie running stopSource on rfl head
  have started := runSteps_start (op := .enterStop) rests (fun _ => initialized) head
  have halted := runSteps_then started (run_teardown rfl rfl closed rfl)
  have other : d.wakeSrc ≠ .calTimer := by
    rintro h
    simp [h] at stopSource
  have member : d.wakeSrc ∈ stopSources := by simpa [stopSources] using stopSource
  have pended := runSteps_then halted (runSteps_setPending (mayPend_of_enabled other on) rfl)
  have woken := runSteps_then pended
    (run_stopWake rfl rfl member ((wakes_iff _ _).2 ⟨Pending.get_set_same _ _ _, on, .inr ie⟩) rfl)
  have handled := runSteps_then woken
    (runSteps_handler ((handlerEnabled_iff _ _).2 ⟨ie, rfl, Pending.get_set_same _ _ _, on⟩) rfl)
  rw [handlerEntry_eq other] at handled
  have run := runSteps_then handled (run_exitStop rfl rfl rfl closed rfl)
  refine ⟨_, run, ?_, ?_⟩
  · rfl
  · simp [pend, done, Pending.set_set, member, resumed_afterWake, rests.1, rests.2.1, rests.2.2, running, ie]

/-! ### SYS_INIT (R101 to R111) -/

section
variable {s : State} {d : Draws} {rest : List Action}

theorem run_siEntry_cold (at_phase : s.seqPhase = .siEntry) (first : s.lifecycle = .uninitialized)
    (head : s.agenda = .fsm d :: rest) :
    runSteps 1 s = .next { s with agenda := rest, coldPath := true, seqPhase := .ccVos } := by
  simp [runSteps, step, nextStep, head, runAction, fsmTurn, fsmStep, at_phase, siEntry, first]

theorem run_siEntry_resume (at_phase : s.seqPhase = .siEntry) (again : s.lifecycle = .initialized)
    (head : s.agenda = .fsm d :: rest) :
    runSteps 1 s = .next { s with agenda := rest, coldPath := false, seqPhase := .crVos } := by
  simp [runSteps, step, nextStep, head, runAction, fsmTurn, fsmStep, at_phase, siEntry, again]

/-- What SI_CONSOLE to SI_FIRSTBOOT leave of the peripherals' fields. -/
def booted (p : Periph) : Periph :=
  ⟨true, true, true, true, true, true, true, p.wdgInit, false⟩

theorem run_boot_battery (at_phase : s.seqPhase = .siConsole) (init : s.curCmd = some .sysInit)
    (cold : s.coldPath = true) (battery : s.pwr.pwrSrc = .batteryPower)
    (head : s.agenda = List.replicate 8 (.fsm d) ++ rest) :
    runSteps 8 s = .next { s with agenda := rest, lifecycle := .initialized, pwr := { s.pwr with fullShutdownEn := false }, periph := booted s.periph, txbuf := { s.txbuf with head := some 0, tail := some 0 }, rxbuf := { s.rxbuf with head := some 0, tail := some 0 }, evt := s.evt ++ [.init .console, .init .rtc, .ledsOff, .unusedPinsLp, .pwrWrite .fullShutdownEn 0, .init .adc, .init .radioBus, .init .radioDbg], seqPhase := .calCheck } := by
  simp [runSteps, step, nextStep, head, List.replicate, runAction, fsmTurn, fsmStep, at_phase, siConsole, Ring.emptied, siRtc,
    siLeds, siPins, siLppolicy, isBattery, battery, siAdc, siRadio, init, cold, siFirstboot, booted]

theorem run_boot_external (at_phase : s.seqPhase = .siConsole) (init : s.curCmd = some .sysInit)
    (cold : s.coldPath = true) (external : s.pwr.pwrSrc = .externalPower)
    (head : s.agenda = List.replicate 8 (.fsm d) ++ rest) :
    runSteps 8 s = .next { s with agenda := rest, lifecycle := .initialized, periph := booted s.periph, txbuf := { s.txbuf with head := some 0, tail := some 0 }, rxbuf := { s.rxbuf with head := some 0, tail := some 0 }, evt := s.evt ++ [.init .console, .init .rtc, .ledsOff, .unusedPinsLp, .init .adc, .init .radioBus, .init .radioDbg], seqPhase := .siWdg } := by
  simp [runSteps, step, nextStep, head, List.replicate, runAction, fsmTurn, fsmStep, at_phase, siConsole, Ring.emptied, siRtc,
    siLeds, siPins, siLppolicy, isBattery, external, siAdc, siRadio, init, cold, siFirstboot, booted]

theorem run_siWdg (at_phase : s.seqPhase = .siWdg) (init : s.curCmd = some .sysInit) (head : s.agenda = .fsm d :: rest) :
    runSteps 1 s = .next (done { s with agenda := rest, periph := { s.periph with wdgInit := true }, evt := s.evt ++ [.init .wdg] }) := by
  simp [runSteps, step, nextStep, head, runAction, fsmTurn, fsmStep, at_phase, siWdg, init, done]

/-- SYS_INIT from its acceptance to the end of the cold sequence. -/
theorem run_coldBoot_clock (rests : atRest s) (first : s.lifecycle = .uninitialized)
    (head : s.agenda = cmdWrite s.params 0x00000001#32 :: .fsm d :: (coldSchedule d ++ rest)) :
    runSteps 18 s = .next { s with agenda := rest, coldPath := true, curCmd := some .sysInit, issued := false, clk := coldStarted s.clk, counters := { s.counters with coldSeq := s.counters.coldSeq + 1 }, evt := s.evt ++ .cmd .sysInit :: coldEvents, seqPhase := .siConsole } := by
  have started := runSteps_start (op := .sysInit) rests (by simp [needsInitialized]) head
  have entered := runSteps_then started (run_siEntry_cold rfl first rfl)
  simpa [coldReturn, goto] using runSteps_then entered (run_cold rfl rfl rfl)

end

/-- Settles O58: the cold sequence, the boot phases, on battery the calibrator's, and the watchdog. -/
theorem sysInitColdBoot : Obligations.SysInitColdBoot := by
  refine ⟨fun s d rest rests first ie running notYet battery head => ?_, fun s d rest rests first external head => ?_⟩
  all_goals have clock := run_coldBoot_clock rests first head
  · have boot := runSteps_then clock (run_boot_battery rfl rfl rfl battery rfl)
    have calibrated := runSteps_then boot (run_calibration rfl notYet ie running rfl)
    rw [calReturn_of_sysInit rfl] at calibrated
    have run := runSteps_then calibrated (run_siWdg rfl rfl rfl)
    simpa [booted, done, rests.1, rests.2.1, rests.2.2] using run
  · have boot := runSteps_then clock (run_boot_external rfl rfl rfl external rfl)
    have run := runSteps_then boot (run_siWdg rfl rfl rfl)
    simpa [booted, done, rests.1, rests.2.1, rests.2.2] using run

/-- Settles O59: the resume sequence and the rebuild. -/
theorem sysInitResumes : Obligations.SysInitResumes := by
  intro s d rest rests again head
  have started := runSteps_start (op := .sysInit) rests (by simp [needsInitialized]) head
  have entered := runSteps_then started (run_siEntry_resume rfl again rfl)
  have clock := runSteps_then entered (run_resume rfl rfl rfl)
  rw [resumeReturn, if_pos (.inl rfl)] at clock
  have run := runSteps_then clock (run_rebuild_sysInit rfl rfl rfl rfl)
  simpa [done, rests.1, rests.2.1, rests.2.2] using run

end Sys2Proof.Machine
end

section
/-! SUPPORT. The proof that no resume wait is endless on healthy hardware (R176, R287): while the phase polls, its enables
stay and its flag, once up, stays up; so the environment raises the flag and the FSM's next step leaves the phase. -/

namespace Sys2Proof.Machine

/-! ### What a resume phase waits for -/

/-- A resume phase has enabled what it waits for (R161 to R164, R175). -/
inductive Armed (c : ClkCtrl) : Phase → Prop where
  | crVos (on : c.vosFull = true) : Armed c .crVos
  | crHse (on : c.hseOn = true) : Armed c .crHse
  | crPll (on : c.pllOn = true) (source : c.pllSrcHse = true) (oscillator : c.hseRdy = true) : Armed c .crPll
  | crSw (sw : c.sw = .pll) (locked : c.pllLock = true) : Armed c .crSw

/-- The condition a resume phase waits for (R161 to R164). -/
def arrived (c : ClkCtrl) : Phase → Bool
  | .crVos => c.vosRdy
  | .crHse => c.hseRdy
  | .crPll => c.pllLock
  | .crSw => c.sws == .pll
  | _ => false

/-- The environment's change that makes it (R175). -/
def awaited : Phase → EnvAction
  | .crVos => .raiseVosRdy
  | .crHse => .raiseHseRdy
  | .crPll => .raisePllLock
  | _ => .updateSws

theorem readinessPermitted_awaited {p : Phase} {s : State} (armed : Armed s.clk p) (notYet : arrived s.clk p = false) :
    readinessPermitted s (awaited p) = true := by
  cases armed with
  | crVos on => simp_all [readinessPermitted, awaited, arrived, vosMayRise]
  | crHse on => simp_all [readinessPermitted, awaited, arrived, hseMayRise]
  | crPll on source oscillator => simp_all [readinessPermitted, awaited, arrived, lockMayRise]
  | crSw sw locked => simp_all [readinessPermitted, awaited, arrived, swsMayFollow]

theorem arrived_envStep_awaited {p : Phase} {s : State} (armed : Armed s.clk p) :
    arrived (envStep (awaited p) s).clk p = true := by
  cases armed with
  | crVos on => rw [awaited, envStep_raiseVosRdy on, arrived]
  | crHse on => rw [awaited, envStep_raiseHseRdy on, arrived]
  | crPll on source oscillator => rw [awaited, envStep_raisePllLock on source oscillator, arrived]
  | crSw sw locked => simp [awaited, envStep_updateSws locked, arrived, sw]

/-! ### The clock tree while a phase polls -/

/-- Enables and the switch stay, flags only rise, and the observed switch stays with the switch once it agrees. -/
structure ClkRises (c c' : ClkCtrl) : Prop where
  vosFull : c'.vosFull = c.vosFull
  hseOn : c'.hseOn = c.hseOn
  pllOn : c'.pllOn = c.pllOn
  pllSrcHse : c'.pllSrcHse = c.pllSrcHse
  sw : c'.sw = c.sw
  vosRdy : c.vosRdy = true → c'.vosRdy = true
  hseRdy : c.hseRdy = true → c'.hseRdy = true
  pllLock : c.pllLock = true → c'.pllLock = true
  sws : c.sws = c.sw → c'.sws = c.sw

theorem ClkRises.refl (c : ClkCtrl) : ClkRises c c :=
  ⟨rfl, rfl, rfl, rfl, rfl, id, id, id, id⟩

theorem EnvEffect.clkRises {s t : State} (h : EnvEffect s t) : ClkRises s.clk t.clk := by
  cases h
  case vosRdy | hseRdy | lseRdy | pllLock | sws => constructor <;> simp
  all_goals exact .refl _

section
variable {c c' : ClkCtrl} {p : Phase}

theorem ClkRises.armed (rises : ClkRises c c') (armed : Armed c p) : Armed c' p := by
  cases armed with
  | crVos on => exact .crVos (rises.vosFull.trans on)
  | crHse on => exact .crHse (rises.hseOn.trans on)
  | crPll on source oscillator =>
    exact .crPll (rises.pllOn.trans on) (rises.pllSrcHse.trans source) (rises.hseRdy oscillator)
  | crSw sw locked => exact .crSw (rises.sw.trans sw) (rises.pllLock locked)

theorem ClkRises.arrived (rises : ClkRises c c') (armed : Armed c p) (already : arrived c p = true) :
    Machine.arrived c' p = true := by
  cases armed with
  | crVos => exact rises.vosRdy already
  | crHse => exact rises.hseRdy already
  | crPll => exact rises.pllLock already
  | crSw sw =>
    have switched : c.sws = .pll := beq_iff_eq.1 already
    exact beq_iff_eq.2 ((rises.sws (switched.trans sw.symm)).trans sw)

end

/-! ### One action while a phase polls -/

/-- The phase polls with what it waits for enabled. -/
structure Polls (p : Phase) (s : State) : Prop where
  at_phase : s.seqPhase = p
  issued : s.issued = true
  armed : Armed s.clk p

/-- The phase has been left by its completion. -/
def Left (p : Phase) (s : State) : Prop := s.issued = false ∧ s.seqPhase ≠ p

section
variable {p : Phase} {s t : State}

theorem Polls.not_idle (polls : Polls p s) : s.seqPhase ≠ .idle := by
  obtain ⟨rfl, -, armed⟩ := polls
  intro idle
  rw [idle] at armed
  cases armed

theorem Polls.congr (polls : Polls p s) (control : SameControl s t) (rises : ClkRises s.clk t.clk) : Polls p t :=
  ⟨control.seqPhase.trans polls.at_phase, control.issued.trans polls.issued, rises.armed polls.armed⟩

theorem left_crSwDone (s : State) : Left .crSw (crSwDone s) := by
  unfold crSwDone
  dsimp only
  split
  · exact ⟨rfl, nofun⟩
  · exact ⟨rfl, nofun⟩

/-- The FSM's step completes the phase, or, while the condition does not hold, does not move. -/
theorem Polls.fsmStep (polls : Polls p s) (d : Draws) :
    arrived s.clk p = true ∧ (∃ t, Machine.fsmStep d s = some t ∧ Left p t) ∨
      arrived s.clk p = false ∧ Machine.fsmStep d s = none := by
  obtain ⟨at_phase, issued, armed⟩ := polls
  cases armed with
  | crVos => cases up : s.clk.vosRdy <;> simp [fsmStep_crVos, at_phase, arrived, crVos, issued, resumeComplete, up, Left]
  | crHse => cases up : s.clk.hseRdy <;> simp [fsmStep_crHse, at_phase, arrived, crHse, issued, resumeComplete, up, Left]
  | crPll => cases up : s.clk.pllLock <;> simp [fsmStep_crPll, at_phase, arrived, crPll, issued, resumeComplete, up, Left]
  | crSw =>
    rw [fsmStep_crSw d at_phase]
    cases up : s.clk.sws with
    | pll => exact .inl ⟨by simp [arrived, up], _, crSw_of_switched issued up, left_crSwDone s⟩
    | internal => exact .inr ⟨by simp [arrived, up], crSw_of_unswitched issued up⟩

theorem Polls.fsmTurn (polls : Polls p s) (d : Draws) : Left p (Machine.fsmTurn d s) ∨ Machine.fsmTurn d s = s := by
  unfold Machine.fsmTurn
  rcases polls.fsmStep d with ⟨-, t, moves, left⟩ | ⟨-, waits⟩
  · exact .inl (by rwa [moves])
  · exact .inr (by rw [waits, Option.getD_none])

theorem Polls.left_of_arrived (polls : Polls p s) (d : Draws) (met : arrived s.clk p = true) :
    Left p (Machine.fsmTurn d s) := by
  unfold Machine.fsmTurn
  rcases polls.fsmStep d with ⟨-, t, moves, left⟩ | ⟨unmet, -⟩
  · rwa [moves]
  · cases met.symm.trans unmet

/-- Software moves neither the clock tree nor a busy sequencer. -/
theorem Polls.access (polls : Polls p s) (effect : AccessEffect s t) : Polls p t ∧ t.clk = s.clk :=
  have clk := (access_frame effect).clk
  have control := effect.control.resolve_right fun ⟨_, accepted⟩ => polls.not_idle accepted.idle
  ⟨polls.congr control (clk ▸ .refl _), clk⟩

theorem Polls.handler (polls : Polls p s) {src : Source} {body : List Access}
    (run : runAccesses body (handlerEntry src s) = .next t) : Polls p t ∧ t.clk = s.clk := by
  have clk := handlerEntry_clk src s
  obtain ⟨u, hu, kept⟩ := runAccesses_next (fun u => Polls p u ∧ u.clk = s.clk)
    (fun _ _ effect ⟨polls, same⟩ => (polls.access effect).imp id (·.trans same))
    body _ ⟨polls.congr (handlerEntry_control src s) (clk ▸ .refl _), clk⟩
  cases hu.symm.trans run
  exact kept

/-- Any action but a reset leaves the phase or keeps it polling, no flag lowered. -/
theorem Polls.runAction (polls : Polls p s) {a : Action} (noReset : ∀ d, a ≠ .reset d)
    (run : Machine.runAction a s = .next t) : Left p t ∨ Polls p t ∧ ClkRises s.clk t.clk := by
  have unmoved (kept : Polls p t ∧ t.clk = s.clk) : Left p t ∨ Polls p t ∧ ClkRises s.clk t.clk :=
    .inr ⟨kept.1, kept.2 ▸ .refl _⟩
  cases a with
  | main access =>
    obtain ⟨u, hu, effect⟩ := runAccess_next access s
    cases hu.symm.trans run
    exact unmoved (polls.access effect)
  | fsm d =>
    cases run
    rcases polls.fsmTurn d with left | waits
    · exact .inl left
    · exact unmoved (waits.symm ▸ ⟨polls, rfl⟩)
  | handler src body =>
    simp only [Machine.runAction, handlerStep] at run
    split at run
    · exact unmoved (polls.handler run)
    · cases run
      exact unmoved ⟨polls, rfl⟩
  | env e =>
    cases run
    have effect := envStep_effect e s
    exact .inr ⟨polls.congr effect.control effect.clkRises, effect.clkRises⟩
  | reset d => exact absurd rfl (noReset d)

end

/-! ### The run -/

theorem IsRun.after_env {act : Nat → Action} {st : Nat → State} (run : IsRun act st) {n : Nat} {e : EnvAction}
    (turn : act n = .env e) : st (n + 1) = envStep e (st n) := by
  have next := run n
  rw [turn, runAction] at next
  exact (Host.Outcome.next.inj next).symm

theorem IsRun.after_fsm {act : Nat → Action} {st : Nat → State} (run : IsRun act st) {n : Nat} {d : Draws}
    (turn : act n = .fsm d) : st (n + 1) = fsmTurn d (st n) := by
  have next := run n
  rw [turn, runAction] at next
  exact (Host.Outcome.next.inj next).symm

section
variable {act : Nat → Action} {st : Nat → State} {p : Phase} {m : Nat}
  (run : IsRun act st) (noReset : ∀ n d, act n ≠ .reset d)
include run noReset

theorem polls_of_never_left (polls : Polls p (st m)) (never : ∀ n, m < n → ¬ Left p (st n)) {n : Nat} (le : m ≤ n) :
    Polls p (st n) := by
  induction le with
  | refl => exact polls
  | step le polls => exact ((polls.runAction (noReset _) (run _)).resolve_left (never _ (Nat.lt_succ_of_le le))).1

theorem arrived_of_never_left (polls : Polls p (st m)) (never : ∀ n, m < n → ¬ Left p (st n)) {k n : Nat} (le : m ≤ k)
    (met : arrived (st k).clk p = true) (after : k ≤ n) : arrived (st n).clk p = true := by
  induction after with
  | refl => exact met
  | step after met =>
    have later := Nat.le_trans le after
    have polling := polls_of_never_left run noReset polls never later
    have kept := (polling.runAction (noReset _) (run _)).resolve_left (never _ (Nat.lt_succ_of_le later))
    exact kept.2.arrived polling.armed met

theorem exists_arrived (polls : Polls p (st m)) (never : ∀ n, m < n → ¬ Left p (st n)) (healthy : HwHealthy act st) :
    ∃ k, m ≤ k ∧ arrived (st k).clk p = true := by
  refine Classical.byContradiction fun unmet => ?_
  have down (n : Nat) (le : m ≤ n) : arrived (st n).clk p = false :=
    Bool.eq_false_iff.2 fun up => unmet ⟨n, le, up⟩
  have armed (n : Nat) (le : m ≤ n) : Armed (st n).clk p := (polls_of_never_left run noReset polls never le).armed
  obtain ⟨n, le, raises⟩ := healthy.readiness (awaited p) m fun n le =>
    readinessPermitted_awaited (armed n le) (down n le)
  refine unmet ⟨n + 1, Nat.le_succ_of_le le, ?_⟩
  rw [run.after_env raises]
  exact arrived_envStep_awaited (armed n le)

/-- A polling resume phase is left: the flag comes up and the FSM's next turn completes the phase. -/
theorem exists_left (polls : Polls p (st m)) (healthy : HwHealthy act st) (fair : FsmFair act) :
    ∃ n, m < n ∧ Left p (st n) := by
  refine Classical.byContradiction fun stays => ?_
  have never (n : Nat) (later : m < n) : ¬ Left p (st n) := fun left => stays ⟨n, later, left⟩
  obtain ⟨k, le, met⟩ := exists_arrived run noReset polls never healthy
  obtain ⟨n, d, after, turn⟩ := fair k
  have later := Nat.le_trans le after
  refine never (n + 1) (Nat.lt_succ_of_le later) ?_
  rw [run.after_fsm turn]
  exact (polls_of_never_left run noReset polls never later).left_of_arrived d
    (arrived_of_never_left run noReset polls never le met after)

end

/-- The clock tree's invariant gives what the enables of CR_PLL and CR_SW need besides (R159, R165). -/
theorem polls_of_clockInv {s : State} (inv : ClockInv s) (issued : s.issued = true)
    (resume : s.seqPhase ∈ [Phase.crVos, .crHse, .crPll, .crSw]) (vos : s.seqPhase = .crVos → s.clk.vosFull = true)
    (hse : s.seqPhase = .crHse → s.clk.hseOn = true) (pll : s.seqPhase = .crPll → s.clk.pllOn = true) :
    Polls s.seqPhase s := by
  refine ⟨rfl, issued, ?_⟩
  simp only [List.mem_cons, List.not_mem_nil, or_false] at resume
  rcases resume with at_phase | at_phase | at_phase | at_phase
  all_goals rw [at_phase]
  · exact .crVos (vos at_phase)
  · exact .crHse (hse at_phase)
  · exact .crPll (pll at_phase) (inv.pll_issued (.inr at_phase) issued) (inv.pll_after_osc (.inr at_phase))
  · exact .crSw (inv.switch_issued (.inr at_phase) issued) (inv.switch_after_lock (.inr at_phase)).1

/-- Settles O60, by `exists_left`. -/
theorem resumeWaitEndsOnHealthyHardware : Obligations.ResumeWaitEndsOnHealthyHardware :=
  fun _ _ _ run healthy fair noReset inv issued resume vos hse pll =>
    exists_left run noReset (polls_of_clockInv inv issued resume vos hse pll) healthy fair

end Sys2Proof.Machine
end
